-- ==== Sys2Proof/Word.lean ====
section
/-!
DEFINITION. The word types of the core (10_state R13 to R24) and the records its operations exchange:
the calendar record CAL of R15, what the time source may answer (R107), and the events an observer sees.
-/
namespace Sys2Proof

/-- A symbol as it is stored: 2 bits (R14, R50). -/
abbrev Symbol := BitVec 2

/-- A sequencer state code: 4 bits (R17, R58). -/
abbrev SeqCode := BitVec 4

/-- The fields of the operand record CAL that the encoder reads: all but CAL.sec (R15, R78). -/
structure CalFields where
  min : BitVec 6
  hraw : BitVec 5
  mday : BitVec 5
  wraw : BitVec 3
  mon : BitVec 4
  year2 : BitVec 7
  dst : Bool
deriving DecidableEq, Repr, Inhabited

/-- The operand record CAL (R15): the encoder's fields and the second of minute, which is never encoded. -/
structure Cal extends CalFields where
  sec : BitVec 6
deriving DecidableEq, Repr, Inhabited

/-- One answer of the time source, in range by its type: "it always answers in range" (R15, R107).
A day and a month are counted from 0 here. The second may be 60: R156 says what the core does with it. -/
structure CalAnswer where
  sec : Fin 61
  min : Fin 60
  hraw : Fin 24
  mday : Fin 31
  wraw : Fin 7
  mon : Fin 12
  year2 : Fin 100
  dst : Bool
deriving DecidableEq, Repr, Inhabited

/-- A carrier key event with the wall clock at which it happens (R10, R65, R109, R110). -/
structure KeyEvent where
  time : Nat
  on : Bool
deriving DecidableEq, Repr

/-- What a status line is about (R117): a synchronisation check with the second seen, or an index
with its symbol. -/
inductive StatusInfo where
  | sync (sec : BitVec 6)
  | emit (idx : BitVec 6) (sym : Symbol)
deriving DecidableEq, Repr

/-- A status line, without its text, which the spec does not give (R117). -/
structure StatusEvent where
  time : Nat
  what : StatusInfo
deriving DecidableEq, Repr

/-- One pulse of the reset input: rst rises at wall clock `rise` and stays high for `hold`
microseconds (R141). -/
structure ResetPulse where
  rise : Nat
  hold : Nat
deriving DecidableEq, Repr

end Sys2Proof
end

