-- ==== Sys2Proof/Config.lean ====
section
/-!
DEFINITION. The parameters of the hardware (00_scope R6, R7), each a named constant, and the values the
spec leaves open (R8), each an opaque constant: nothing can be proved of its value.
-/
namespace Sys2Proof

/-! Symbol codes, parameter SYM_CODE (R7, R50). -/

abbrev Config.symZero : Symbol := 0
abbrev Config.symOne : Symbol := 1
abbrev Config.symNone : Symbol := 2
abbrev Config.symReserved : Symbol := 3

/-! Constants fixed by D0 (R6). -/

abbrev Config.nSym : Nat := 60
abbrev Config.secUs : Nat := 1000000
abbrev Config.t0Us : Nat := 100000
abbrev Config.t1Us : Nat := 200000
abbrev Config.acqSec : BitVec 6 := 59
abbrev Config.firstData : BitVec 6 := 1
abbrev Config.lastData : BitVec 6 := 58
abbrev Config.startSym : Symbol := Config.symOne
abbrev Config.gapSym : Symbol := Config.symNone
abbrev Config.advS : Nat := 60
abbrev Config.cetOffsetH : Nat := 1
abbrev Config.dstExtraH : Nat := 1
abbrev Config.hourMod : Nat := 24
abbrev Config.sundayRaw : BitVec 3 := 0
abbrev Config.sundayDcf : BitVec 3 := 7
abbrev Config.bit20 : Symbol := Config.symZero

/-! Parameters with the value the spec decides (R7). -/

abbrev Config.f0Sym : Symbol := Config.symNone
abbrev Config.f59Sym : Symbol := Config.symNone
/-- PREAMBLE[1..16] and PREAMBLE[19]: ONE each (R7, R57). FIXPAT takes the pattern as an argument, so
that a claim can quantify over it. -/
def Config.preamble : Nat → Symbol := fun _ => Config.symOne
abbrev Config.keyReset : Bool := true
/-- HAS_STOP (R7, R104): this hardware has no stop input. -/
abbrev Config.hasStop : Bool := false

/-! Sequencer state codes, parameter PC_CODE (R7, R58). -/

abbrev Config.pcIdle : SeqCode := 0
abbrev Config.pcAcqPoll : SeqCode := 1
abbrev Config.pcAcqWait : SeqCode := 2
abbrev Config.pcS59Emit : SeqCode := 3
abbrev Config.pcS59Wait : SeqCode := 4
abbrev Config.pcS0Emit : SeqCode := 5
abbrev Config.pcS0Wait : SeqCode := 6
abbrev Config.pcBuild : SeqCode := 7
abbrev Config.pcDEmit : SeqCode := 8
abbrev Config.pcDWait : SeqCode := 9
abbrev Config.pcHalt : SeqCode := 15

/-! What the spec leaves open (R8, R28): free values. The environment's answers are drawn in order, the
argument being the number of the draw (log entries 2 and 3). -/

/-- The time a primitive other than Sleep, or a piece of pure computation, takes: any natural (R111). -/
opaque Config.stepTime : Nat → Nat
/-- The lateness of one wake-up: any natural (R108). -/
opaque Config.wakeLatency : Nat → Nat
/-- ClockOK: whether a clock read succeeds (R106). -/
opaque Config.clockOk : Nat → Bool
/-- The level of the input start when IDLE samples it (R88, R145). -/
opaque Config.startLevel : Nat → Bool
/-- The level of the input stop_req when a wait samples it; used only if HAS_STOP (R104). -/
opaque Config.stopLevel : Nat → Bool
/-- Calendar, the time source's total function, fixed for a run (R107). -/
opaque Config.calendar : Nat → CalAnswer
/-- The 6 bits IDX holds after an increment at 63, a result no rule states (R163 g; log entry 12). -/
opaque Config.idxAfterOverflow : BitVec 6

end Sys2Proof
end

