-- ==== Sys2Proof/Syntax.lean ====
section
/-!
DEFINITION. The operations of opcode_table.json, one constructor a row, with the operands the rule of
each gives it.
-/
namespace Sys2Proof

/-- The parity accumulator an encoder operation works on (R19). -/
inductive ParSel where
  | p1
  | p2
  | p3
deriving DecidableEq, Repr

/-- The register a Calendar query is made for: "State written: CAL or SEC" (R107). -/
inductive CalDest where
  | second
  | fields
deriving DecidableEq, Repr

/-- The faults `raise` can record (R121). -/
inductive CoreFault where
  | hardwareUnavailable
  | invalidCarrierConfiguration
  | clockReadFailure
  | illegalSymbol
deriving DecidableEq, Repr

/-- One row of opcode_table.json each, in the table's order. -/
inductive Instr where
  -- SYM: a symbol, executed as a pulse
  | sym0
  | sym1
  | symN
  | symReserved
  -- SEQ: a micro-operation of the sequencer
  | idle
  | acqPoll
  | acqWait
  | s59Emit
  | s59Wait
  | s0Emit
  | s0Wait
  | build
  | dEmit
  | dWait
  | halt
  | seqUnused1010
  | seqUnused1011
  | seqUnused1100
  | seqUnused1101
  | seqUnused1110
  -- FRAME and FIELD: the encoder's assembler
  | buildFrame (cal : CalFields)
  | fixPat
  | dstPair (dst : Bool)
  | encMin (min : BitVec 6)
  | encHour (hour : BitVec 5)
  | encDate (mday : BitVec 5) (dow : BitVec 3) (mon : BitVec 4) (year2 : BitVec 7)
  -- FUNC: the encoder's functions
  | hrAdj (hraw : BitVec 5) (dst : Bool)
  | dowMap (wraw : BitVec 3)
  | bcdU (v : BitVec 7)
  | bcdT (v : BitVec 7) (w : BitVec 3)
  | lsbF (g : BitVec 4) (w : BitVec 3) (lo : BitVec 6) (p : ParSel)
  | par (p : ParSel) (pi : BitVec 6)
  -- PRIM: primitives and composites of the timer and key
  | clockRead
  | calendar (dest : CalDest) (s : Nat)
  | sleep (d : BitVec 20)
  | keyOff
  | keyOn
  | pulse (sy : Symbol)
  | waitB
  | status (what : StatusInfo)
  | raise (x : CoreFault)
  | reset
deriving DecidableEq, Repr

end Sys2Proof
end

