-- ==== Sys2Proof/WellFormed.lean ====
section
/-!
DEFINITION. The operand ranges within which the spec uses each operation (10_state R15, R16;
41_frame_encoder R67 to R78; 43_pulse_and_timer R108, R115, R117). Outside them the operations are still
total (R80); nothing in the machine checks them.
-/
namespace Sys2Proof

/-- The cells a parity accumulator covers, first and last (R19, R56). -/
def ParSel.lo : ParSel → Nat
  | .p1 => 21
  | .p2 => 29
  | .p3 => 36

def ParSel.hi : ParSel → Nat
  | .p1 => 27
  | .p2 => 34
  | .p3 => 57

/-- The index of the accumulator's parity cell (R19, R74). -/
def ParSel.cell : ParSel → Nat
  | .p1 => 28
  | .p2 => 35
  | .p3 => 58

/-- The ranges in which the time source delivers CAL (R15). -/
def CalFields.inRange (c : CalFields) : Bool :=
  c.min.toNat ≤ 59 && c.hraw.toNat ≤ 23 && (1 ≤ c.mday.toNat) && c.wraw.toNat ≤ 6
    && (1 ≤ c.mon.toNat && c.mon.toNat ≤ 12) && c.year2.toNat ≤ 99

/-- A status line names a second, or a cell with a symbol that is not reserved (R117). -/
def StatusInfo.wellFormed : StatusInfo → Bool
  | .sync _ => true
  | .emit idx sym => idx.toNat < Config.nSym && sym != Config.symReserved

/-- The instruction's operands are in the ranges its rule gives. -/
def Instr.wellFormed : Instr → Bool
  | .buildFrame cal => cal.inRange
  | .encMin min => min.toNat ≤ 59
  | .encHour hour => hour.toNat ≤ 23
  | .encDate mday dow mon year2 =>
      (1 ≤ mday.toNat) && (1 ≤ dow.toNat) && (1 ≤ mon.toNat && mon.toNat ≤ 12)
        && year2.toNat ≤ 99
  | .hrAdj hraw _ => hraw.toNat ≤ 23
  | .dowMap wraw => wraw.toNat ≤ 6
  | .bcdU v => v.toNat ≤ 99
  | .bcdT v w => v.toNat ≤ 99 && (1 ≤ w.toNat && w.toNat ≤ 4)
  | .lsbF _ w lo p => (1 ≤ w.toNat && w.toNat ≤ 4) && (p.lo ≤ lo.toNat && lo.toNat + w.toNat ≤ p.hi + 1)
  | .par p pi => pi.toNat = p.cell
  | .sleep d => 1 ≤ d.toNat && d.toNat ≤ Config.secUs
  | .pulse sy => sy != Config.symReserved
  | .status what => what.wellFormed
  | .sym0 | .sym1 | .symN | .symReserved => true
  | .idle | .acqPoll | .acqWait | .s59Emit | .s59Wait | .s0Emit | .s0Wait => true
  | .build | .dEmit | .dWait | .halt => true
  | .seqUnused1010 | .seqUnused1011 | .seqUnused1100 | .seqUnused1101 | .seqUnused1110 => true
  | .fixPat | .dstPair _ => true
  | .clockRead | .calendar _ _ | .keyOff | .keyOn | .waitB | .raise _ | .reset => true

end Sys2Proof
end

