-- ==== Sys2Proof/Decode.lean ====
section
/-!
DEFINITION. The codes of 30_encoding and how they are read and written: the 2-bit symbol (R50), the 4-bit
sequencer state (R58), and the groups of cells that the encoder's operations fill (R51 to R57, R75 to
R78). FUNC and PRIM operations have no stored code (R49, R66).
-/
namespace Sys2Proof

/-- A stored code, in the format that the place it is stored in gives it (R49): a cell of F holds a symbol,
PC holds a state, and F holds the groups. A cell of a group is `none` where the operation does not write
it (the '.' of FIXPAT's row). -/
inductive Code where
  | sym (b : Symbol)
  | seq (b : SeqCode)
  | field (lo : Nat) (cells : List (Option Symbol))
  | frame (cells : List Symbol)
deriving DecidableEq, Repr

/-- Why a code is rejected: the values a well-formed frame never holds (R61), and codes of a length or a
place that no row has. -/
inductive DecodeErr where
  | noSuchField
  | wrongLength
  | unwrittenCell
  | badFixedCell
  | badDstPair
  | notABit
  | badParity
  | outOfRange
deriving DecidableEq, Repr

/-! ### Bits and digits -/

/-- The symbol of a bit, `sym` (R12). -/
def symOf (b : Bool) : Symbol := if b then Config.symOne else Config.symZero

/-- The bit of a symbol, `bit` (R12): not defined for NONE and the reserved code. -/
def bitOf (s : Symbol) : Option Bool :=
  if s = Config.symZero then some false else if s = Config.symOne then some true else none

/-- The `w` low bits of `v`, least significant first (R53). -/
def digitBits : Nat → Nat → List Bool
  | 0, _ => []
  | w + 1, v => (v % 2 == 1) :: digitBits w (v / 2)

/-- The number whose bits are given, least significant first (R53, `val` of R83). -/
def valueOf : List Bool → Nat
  | [] => 0
  | b :: r => b.toNat + 2 * valueOf r

/-- The exclusive-or of all the bits, 0 for none (R12, R56). -/
def xorAll : List Bool → Bool
  | [] => false
  | b :: r => b ^^ xorAll r

def bitsOf : List Symbol → Option (List Bool)
  | [] => some []
  | s :: r =>
    match bitOf s, bitsOf r with
    | some b, some bs => some (b :: bs)
    | _, _ => none

def writtenCells : List (Option Symbol) → Option (List Symbol)
  | [] => some []
  | c :: r =>
    match c, writtenCells r with
    | some s, some ss => some (s :: ss)
    | _, _ => none

/-! ### Writing a code (R50 to R58) -/

/-- A two-digit quantity: units in 4 bits, then tens in `w` bits (R53). -/
def twoDigits (w v : Nat) : List Bool := digitBits 4 (v % 10) ++ digitBits w (v / 10)

/-- A group's bits followed by its parity cell (R56). -/
def groupCells (bits : List Bool) : List Symbol := (bits ++ [xorAll bits]).map symOf

def minuteCells (min : Nat) : List Symbol := groupCells (twoDigits 3 min)

def hourCells (hour : Nat) : List Symbol := groupCells (twoDigits 2 hour)

/-- Day, weekday, month and year under one parity cell (R77). -/
def dateCells (mday dow mon year2 : Nat) : List Symbol :=
  groupCells (twoDigits 2 mday ++ (digitBits 3 dow ++ (twoDigits 1 mon ++ twoDigits 4 year2)))

def dstCells (dst : Bool) : List Symbol := [symOf dst, symOf (!dst)]

/-- Cells 1 to 16 (R57). -/
def preambleCells (pre : Nat → Symbol) : List Symbol := (List.range' 1 16).map pre

/-- The hour that the frame carries for a raw hour (R67). -/
def codedHour (hraw : Nat) (dst : Bool) : Nat :=
  (hraw + Config.cetOffsetH + if dst then Config.dstExtraH else 0) % Config.hourMod

/-- The weekday that the frame carries for a raw weekday (R68). -/
def codedDow (wraw : Nat) : Nat :=
  if wraw = Config.sundayRaw.toNat then Config.sundayDcf.toNat else wraw

/-- The 60 cells of a frame, index 0 first (R51, R52). -/
def frameCells (pre : Nat → Symbol) (c : CalFields) : List Symbol :=
  Config.f0Sym :: (preambleCells pre
    ++ (dstCells c.dst
    ++ (pre 19 :: Config.bit20 :: (minuteCells c.min.toNat
    ++ (hourCells (codedHour c.hraw.toNat c.dst)
    ++ (dateCells c.mday.toNat (codedDow c.wraw.toNat) c.mon.toNat c.year2.toNat
    ++ [Config.f59Sym]))))))

/-- The 21 cells of FIXPAT's row; cells 17 and 18 are not written (R73). -/
def fixCells (pre : Nat → Symbol) : List (Option Symbol) :=
  (Config.f0Sym :: preambleCells pre).map some ++ [none, none, some (pre 19), some Config.bit20]

/-- The stored code of an instruction; none for the FUNC and PRIM formats (R49). -/
def encode : Instr → Option Code
  | .sym0 => some (.sym Config.symZero)
  | .sym1 => some (.sym Config.symOne)
  | .symN => some (.sym Config.symNone)
  | .symReserved => some (.sym Config.symReserved)
  | .idle => some (.seq Config.pcIdle)
  | .acqPoll => some (.seq Config.pcAcqPoll)
  | .acqWait => some (.seq Config.pcAcqWait)
  | .s59Emit => some (.seq Config.pcS59Emit)
  | .s59Wait => some (.seq Config.pcS59Wait)
  | .s0Emit => some (.seq Config.pcS0Emit)
  | .s0Wait => some (.seq Config.pcS0Wait)
  | .build => some (.seq Config.pcBuild)
  | .dEmit => some (.seq Config.pcDEmit)
  | .dWait => some (.seq Config.pcDWait)
  | .halt => some (.seq Config.pcHalt)
  | .seqUnused1010 => some (.seq 0b1010)
  | .seqUnused1011 => some (.seq 0b1011)
  | .seqUnused1100 => some (.seq 0b1100)
  | .seqUnused1101 => some (.seq 0b1101)
  | .seqUnused1110 => some (.seq 0b1110)
  | .buildFrame cal => some (.frame (frameCells Config.preamble cal))
  | .fixPat => some (.field 0 (fixCells Config.preamble))
  | .dstPair dst => some (.field 17 ((dstCells dst).map some))
  | .encMin min => some (.field 21 ((minuteCells min.toNat).map some))
  | .encHour hour => some (.field 29 ((hourCells hour.toNat).map some))
  | .encDate mday dow mon year2 =>
      some (.field 36 ((dateCells mday.toNat dow.toNat mon.toNat year2.toNat).map some))
  | .hrAdj _ _ => none
  | .dowMap _ => none
  | .bcdU _ => none
  | .bcdT _ _ => none
  | .lsbF _ _ _ _ => none
  | .par _ _ => none
  | .clockRead => none
  | .calendar _ _ => none
  | .sleep _ => none
  | .keyOff => none
  | .keyOn => none
  | .pulse _ => none
  | .waitB => none
  | .status _ => none
  | .raise _ => none
  | .reset => none

/-! ### Reading a code -/

/-- The symbol codes (R50); code 11 is the reserved row (R60). -/
def decodeSym (b : Symbol) : Instr :=
  if b = Config.symZero then .sym0
  else if b = Config.symOne then .sym1
  else if b = Config.symNone then .symN
  else .symReserved

/-- The sequencer state codes (R58) and the unused ones (R62). -/
def decodeSeq (b : SeqCode) : Instr :=
  if b = Config.pcIdle then .idle
  else if b = Config.pcAcqPoll then .acqPoll
  else if b = Config.pcAcqWait then .acqWait
  else if b = Config.pcS59Emit then .s59Emit
  else if b = Config.pcS59Wait then .s59Wait
  else if b = Config.pcS0Emit then .s0Emit
  else if b = Config.pcS0Wait then .s0Wait
  else if b = Config.pcBuild then .build
  else if b = Config.pcDEmit then .dEmit
  else if b = Config.pcDWait then .dWait
  else if b = 0b1010 then .seqUnused1010
  else if b = 0b1011 then .seqUnused1011
  else if b = 0b1100 then .seqUnused1100
  else if b = 0b1101 then .seqUnused1101
  else if b = 0b1110 then .seqUnused1110
  else .halt

/-- The bits of a group without its parity cell: every cell is a bit, and with the parity cell included
the exclusive-or is 0 (R56). -/
def readGroup (n : Nat) (cells : List Symbol) : Except DecodeErr (List Bool) :=
  match bitsOf cells with
  | none => .error .notABit
  | some bits =>
    if bits.length ≠ n + 1 then .error .wrongLength
    else if xorAll bits then .error .badParity
    else .ok (bits.take n)

/-- The two-digit quantity at place `lo` of a group, its tens digit `w` bits wide; both digits are
decimal (R53, R61). -/
def readTwoDigits (w lo : Nat) (bits : List Bool) : Except DecodeErr Nat :=
  let u := valueOf ((bits.drop lo).take 4)
  let t := valueOf ((bits.drop (lo + 4)).take w)
  if u ≤ 9 ∧ t ≤ 9 then .ok (10 * t + u) else .error .outOfRange

/-- A number within its range, or a rejection (R61). -/
def checkRange (lo hi v : Nat) : Except DecodeErr Nat :=
  if lo ≤ v ∧ v ≤ hi then .ok v else .error .outOfRange

def readMinute (cells : List Symbol) : Except DecodeErr Nat := do
  let bits ← readGroup 7 cells
  let v ← readTwoDigits 3 0 bits
  checkRange 0 59 v

def readHour (cells : List Symbol) : Except DecodeErr Nat := do
  let bits ← readGroup 6 cells
  let v ← readTwoDigits 2 0 bits
  checkRange 0 23 v

/-- Day, weekday, month, year of the date group. -/
def readDate (cells : List Symbol) : Except DecodeErr (Nat × Nat × Nat × Nat) := do
  let bits ← readGroup 22 cells
  let mday ← readTwoDigits 2 0 bits
  let mday ← checkRange 1 31 mday
  let dow ← checkRange 1 7 (valueOf ((bits.drop 6).take 3))
  let mon ← readTwoDigits 1 9 bits
  let mon ← checkRange 1 12 mon
  let year2 ← readTwoDigits 4 14 bits
  let year2 ← checkRange 0 99 year2
  return (mday, dow, mon, year2)

/-- The daylight-saving flag of the pair: exactly one of the two cells is set (R55, R61). -/
def readDst (cells : List Symbol) : Except DecodeErr Bool :=
  if cells = dstCells true then .ok true
  else if cells = dstCells false then .ok false
  else .error .badDstPair

/-- The raw hour in 0..23 that HRADJ takes to this hour (R67). -/
def rawHour (hour : Nat) (dst : Bool) : Nat :=
  (hour + (Config.hourMod - Config.cetOffsetH - if dst then Config.dstExtraH else 0)) % Config.hourMod

/-- The raw weekday in 0..6 that DOWMAP takes to this weekday (R68). -/
def rawDow (dow : Nat) : Nat :=
  if dow = Config.sundayDcf.toNat then Config.sundayRaw.toNat else dow

/-- The operands of BUILDFRAME that give this frame, with the fixed cells as decided (R51, R57). -/
def decodeFrame (cells : List Symbol) : Except DecodeErr Instr := do
  if cells.length ≠ Config.nSym then throw .wrongLength
  if cells.take 17 ≠ Config.f0Sym :: preambleCells Config.preamble then throw .badFixedCell
  let dst ← readDst ((cells.drop 17).take 2)
  if (cells.drop 19).take 2 ≠ [Config.preamble 19, Config.bit20] then throw .badFixedCell
  let min ← readMinute ((cells.drop 21).take 8)
  let hour ← readHour ((cells.drop 29).take 7)
  let (mday, dow, mon, year2) ← readDate ((cells.drop 36).take 23)
  if cells.drop 59 ≠ [Config.f59Sym] then throw .badFixedCell
  return .buildFrame
    { min := .ofNat 6 min, hraw := .ofNat 5 (rawHour hour dst), mday := .ofNat 5 mday,
      wraw := .ofNat 3 (rawDow dow), mon := .ofNat 4 mon, year2 := .ofNat 7 year2, dst := dst }

/-- The field group that starts at `lo` (the FIELD rows of the table). -/
def decodeField (lo : Nat) (cells : List (Option Symbol)) : Except DecodeErr Instr :=
  if lo = 0 then
    if cells = fixCells Config.preamble then .ok .fixPat else .error .badFixedCell
  else
    match writtenCells cells with
    | none => .error .unwrittenCell
    | some cs =>
      if lo = 17 then do
        let dst ← readDst cs
        return .dstPair dst
      else if lo = 21 then do
        let min ← readMinute cs
        return .encMin (.ofNat 6 min)
      else if lo = 29 then do
        let hour ← readHour cs
        return .encHour (.ofNat 5 hour)
      else if lo = 36 then do
        let (mday, dow, mon, year2) ← readDate cs
        return .encDate (.ofNat 5 mday) (.ofNat 3 dow) (.ofNat 4 mon) (.ofNat 7 year2)
      else .error .noSuchField

/-- Decoding a stored code: total, and a code no operation has is rejected by name. -/
def decode : Code → Except DecodeErr Instr
  | .sym b => .ok (decodeSym b)
  | .seq b => .ok (decodeSeq b)
  | .field lo cells => decodeField lo cells
  | .frame cells => decodeFrame cells

/-! ### The table's words

The table gives a SYM row 2 bits, a SEQ row 4, and the FRAME and FIELD rows one character a cell. Here a
character is one bit, 1 for ONE; the cells that hold NONE read as bit 0 and must be 0 (log entry 16). -/

def bitCells (n w : Nat) : List Symbol := (digitBits n w).map symOf

/-- FIXPAT's 21 characters as cells: bit 0 stands for NONE, bits 17 and 18 for cells not written. -/
def fixWordCells (w : Nat) : List (Option Symbol) :=
  (if w.testBit 0 then some Config.symOne else some Config.symNone)
    :: ((bitCells 16 (w / 2)).map some ++ (none :: none :: (bitCells 2 (w / 2 ^ 19)).map some))

/-- BUILDFRAME's 60 characters as cells: bits 0 and 59 stand for NONE. -/
def frameWordCells (w : Nat) : List Symbol :=
  (if w.testBit 0 then Config.symOne else Config.symNone)
    :: (bitCells 58 (w / 2) ++ [if w.testBit 59 then Config.symOne else Config.symNone])

/-- The codes a word of the table can stand for, the first that decodes being meant. 8 bits are a state
code in a whole byte where the value is below 16, else ENCMIN's 8 cells; a word with bits above its own
length has them where the row's `fields` number them, by frame index. -/
def tableWordCodes (nbits w : Nat) : List Code :=
  if 2 ^ nbits ≤ w then
    if nbits = 2 ∨ nbits = 8 then
      [.field 17 ((bitCells 2 (w / 2 ^ 17)).map some), .field 21 ((bitCells 8 (w / 2 ^ 21)).map some)]
    else []
  else if nbits = 2 then [.sym (.ofNat 2 w)]
  else if nbits = 4 then [.seq (.ofNat 4 w)]
  else if nbits = 7 then [.field 29 ((bitCells 7 w).map some)]
  else if nbits = 8 then
    if w < 16 then [.seq (.ofNat 4 w)] else [.field 21 ((bitCells 8 w).map some)]
  else if nbits = 21 then [.field 0 (fixWordCells w)]
  else if nbits = 23 then [.field 36 ((bitCells 23 w).map some)]
  else if nbits = 24 then [.field 0 (fixWordCells w), .field 36 ((bitCells 23 w).map some)]
  else if nbits = 60 ∨ nbits = 64 then [.frame (frameWordCells w)]
  else []

def firstDecoded : List Code → Option (Code × Instr)
  | [] => none
  | c :: r =>
    match decode c with
    | .ok i => some (c, i)
    | .error _ => firstDecoded r

/-- The instruction the decoder reads from a word of the table, none where it refuses. -/
def decodeTableWord (nbits w : Nat) : Option Instr := (firstDecoded (tableWordCodes nbits w)).map (·.2)

end Sys2Proof
end

