-- ==== Sys2Proof/Machine/State.lean ====
section
/-!
DEFINITION. The state of the core (10_state R13 to R24), the environment it runs in (10_state R28), the
reasons a step can stop, and the state right after reset (10_state R30).
-/
namespace Sys2Proof.Machine

/-- The frame register F as a memory: the cells something has written, (index, symbol), the indices
strictly rising (20_memory R33 to R35). A cell that is not listed holds no value (10_state R31). -/
abbrev Frame := List (Nat × Symbol)

/-- The canonical form from index `lo` on: strictly rising, and every index names a cell (R34). -/
def Frame.wfFrom : Nat → Frame → Bool
  | _, [] => true
  | lo, (i, _) :: r => lo ≤ i && i < Config.nSym && Frame.wfFrom (i + 1) r

/-- The canonical form of F. -/
def Frame.wf (f : Frame) : Bool := Frame.wfFrom 0 f

/-- What the environment owns and the core only reads (R28). The lists are its coming answers, oldest
first; after a list's end the answers are the free values of Config, numbered by `tick`. -/
structure Env where
  /-- the wall clock W, in microseconds (43 R105) -/
  now : Nat
  /-- durations of the coming primitives and computations other than sleeps (43 R111) -/
  durs : List Nat
  /-- latenesses of the coming wake-ups (43 R108) -/
  lats : List Nat
  /-- whether the coming clock reads succeed, ClockOK (43 R106) -/
  clockOks : List Bool
  /-- the levels of start at the coming samples (42 R88) -/
  starts : List Bool
  /-- the levels of stop_req at the coming samples, if HAS_STOP (42 R104) -/
  stopReqs : List Bool
  /-- the pulses of rst to come, oldest first (70 R141); none after the list's end -/
  resets : List ResetPulse
  /-- the part of Calendar that is pinned down: seconds count and answer (43 R107) -/
  calendar : List (Nat × CalAnswer)
  /-- number of draws made so far -/
  tick : Nat
deriving DecidableEq, Repr

@[ext]
structure State where
  /-- F, the Minute Frame (R14) -/
  frame : Frame
  /-- PC, the sequencer state (R17) -/
  pc : SeqCode
  /-- IDX, the frame index of the current data second (R18) -/
  idx : BitVec 6
  /-- KEY, the carrier key: true = carrier on (R21) -/
  key : Bool
  /-- TMR, microseconds left in the running sleep (R22) -/
  tmr : BitVec 20
  /-- FAULT, the code of the recorded fault (R23) -/
  fault : BitVec 3
  /-- CAL, the operand record (R15, R20) -/
  cal : Cal
  /-- HOUR, the encoded hour (R16) -/
  hour : BitVec 5
  /-- DOW, the encoded weekday (R16) -/
  dow : BitVec 3
  /-- P1, P2, P3, the parity accumulators (R19) -/
  p1 : Bool
  p2 : Bool
  p3 : Bool
  /-- S, the seconds count of the last clock read, of unbounded width W_S (R24) -/
  secs : Nat
  /-- US, its microseconds within the second (R24) -/
  us : BitVec 20
  /-- SEC, the second of minute of the last poll (R24) -/
  sec : BitVec 6
  /-- where BCDU leaves its digit; the model's own (log entry 7) -/
  digU : BitVec 4
  /-- where BCDT leaves its digit; the model's own (log entry 7) -/
  digT : BitVec 4
  /-- the key events so far, oldest first (00_scope R10) -/
  trace : List KeyEvent
  /-- the status lines so far, oldest first (43 R117) -/
  status : List StatusEvent
  /-- the environment (R28) -/
  env : Env
deriving DecidableEq, Repr

/-- The machine stops with a fault. The faults the spec describes are not here: they enter HALT. -/
inductive Fault where
  /-- D_EMIT reads a cell of F that nothing has written: the cell has no value (10_state R31, 93 U1).
  Safe: the model stops, and picks no value. -/
  | unwrittenCell (idx : BitVec 6)
deriving DecidableEq, Repr

/-- The step has no successor. -/
inductive Refusal where
  /-- An arm of exec whose instruction has no meaning yet. Safe: the model stops. -/
  | notModelled (mnemonic : String)
  /-- D_EMIT reads, or LSBF or PAR writes, at an index above 59, which names no cell (20_memory R34, R41;
  93 U16). Safe: the model stops. -/
  | noSuchCell (index : Nat)
deriving DecidableEq, Repr

/-- The environment at reset: the clock at 0 and nothing pinned down (log entries 1 to 4). -/
def Env.initial : Env where
  now := 0
  durs := []
  lats := []
  clockOks := []
  starts := []
  stopReqs := []
  resets := []
  calendar := []
  tick := 0

/-- The operand record at reset: unspecified by R30, all zeros here (log entry 5). -/
def Cal.zero : Cal where
  min := 0
  hraw := 0
  mday := 0
  wraw := 0
  mon := 0
  year2 := 0
  dst := false
  sec := 0

/-- Right after reset (R30). The spec gives PC, IDX, KEY, TMR, FAULT, and F without a value; the
transients, which it leaves unspecified, are zero (log entry 5). -/
def State.reset : State where
  frame := []
  pc := Config.pcIdle
  idx := 0
  key := Config.keyReset
  tmr := 0
  fault := 0
  cal := Cal.zero
  hour := 0
  dow := 0
  p1 := false
  p2 := false
  p3 := false
  secs := 0
  us := 0
  sec := 0
  digU := 0
  digT := 0
  trace := []
  status := []
  env := Env.initial

end Sys2Proof.Machine
end

