-- ==== Sys2Proof/Machine/Ops.lean ====
section
/-!
DEFINITION. The named operations every meaning is made of: cells of F, the passing of time, the clock,
the key, the timer, the status line, entering a fault, reset, and the end of a step.
-/
namespace Sys2Proof.Machine

/-! ### Cells of F (20_memory R36 to R38) -/

/-- The symbol in cell `i`, none if nothing has written it (R31). -/
def Frame.read : Frame → Nat → Option Symbol
  | [], _ => none
  | (j, v) :: r, i => if i = j then some v else Frame.read r i

/-- The frame with cell `i` holding `v`. -/
def Frame.write : Frame → Nat → Symbol → Frame
  | [], i, v => [(i, v)]
  | (j, w) :: r, i, v =>
    if i < j then (i, v) :: (j, w) :: r
    else if i = j then (i, v) :: r
    else (j, w) :: Frame.write r i v

/-- Cells written one after the other, the next at index `i`. -/
def Frame.writeList : Frame → Nat → List Symbol → Frame
  | f, _, [] => f
  | f, i, v :: vs => Frame.writeList (f.write i v) (i + 1) vs

/-! ### The environment's answers: the pinned one, else a free value (log entry 2) -/

def Env.nextDur (e : Env) : Nat := e.durs.headD (Config.stepTime e.tick)

def Env.nextLat (e : Env) : Nat := e.lats.headD (Config.wakeLatency e.tick)

def Env.nextClockOk (e : Env) : Bool := e.clockOks.headD (Config.clockOk e.tick)

def Env.nextStart (e : Env) : Bool := e.starts.headD (Config.startLevel e.tick)

def Env.nextStop (e : Env) : Bool := e.stopReqs.headD (Config.stopLevel e.tick)

/-- The answer of the time source for the seconds count `s`: one total function for the whole run (R107,
log entry 3). -/
def Env.calendarAt (e : Env) (s : Nat) : CalAnswer := (e.calendar.lookup s).getD (Config.calendar s)

/-- The time source agrees with itself at the count `s` (70 R155): one count later the second of minute is the
next modulo 60, and 60 counts later the minute is the one that follows (log entry 3). -/
def Env.consistentAt (e : Env) (s : Nat) : Bool :=
  (e.calendarAt (s + 1)).sec.val == ((e.calendarAt s).sec.val + 1) % 60
    && (e.calendarAt (s + 60)).min.val == ((e.calendarAt s).min.val + 1) % 60

/-- It does so at the `n` counts from `lo` on. -/
abbrev Env.ConsistentOn (e : Env) (lo n : Nat) : Prop := ∀ k < n, e.consistentAt (lo + k) = true

/-- The launch premise R155: the time source is consistent with itself, at every count. -/
def Env.Consistent (e : Env) : Prop := ∀ s, e.consistentAt s = true

/-- The time of one primitive or computation passes (43 R111). -/
def elapse (s : State) : State :=
  { s with env := { s.env with
      now := s.env.now + s.env.nextDur, durs := s.env.durs.tail, tick := s.env.tick + 1 } }

/-- A primitive that acts at one moment of the time it takes (43 R111, log entry 20). -/
def atOneMoment (act : State → State) (s : State) : State := elapse (act (elapse s))

def takeClockOk (s : State) : State :=
  { s with env := { s.env with clockOks := s.env.clockOks.tail, tick := s.env.tick + 1 } }

def takeStart (s : State) : State :=
  { s with env := { s.env with starts := s.env.starts.tail, tick := s.env.tick + 1 } }

def takeStop (s : State) : State :=
  { s with env := { s.env with stopReqs := s.env.stopReqs.tail, tick := s.env.tick + 1 } }

/-! ### Faults (60_exceptions R121, R122) -/

/-- The code of a fault (R121). -/
def faultCode : CoreFault → BitVec 3
  | .hardwareUnavailable => 1
  | .invalidCarrierConfiguration => 2
  | .clockReadFailure => 3
  | .illegalSymbol => 4

/-- Entering a fault: the first code is kept, PC goes to HALT, nothing else is written (R122). The rest of
the step is not executed: every caller ends its step with this. There is no return from it but reset
(R128, R130). R121's table says that the PC at the time of a failed clock read stays readable; with R122 it is
overwritten and lost, and the model follows R122 (log entry 26). -/
def raiseFault (x : CoreFault) (s : State) : State :=
  { s with fault := if s.fault = 0 then faultCode x else s.fault, pc := Config.pcHalt }

/-! ### Primitives (43_pulse_and_timer) -/

/-- S and US take the clock as it stands (R106). -/
def latchClock (s : State) : State :=
  { s with secs := s.env.now / Config.secUs, us := .ofNat 20 (s.env.now % Config.secUs) }

/-- ClockRead, and then the rest of the step, which is not executed if the read fails (R106, R123). -/
def clockReadThen (k : State → State) (s : State) : State :=
  if s.env.nextClockOk then k (atOneMoment latchClock (takeClockOk s))
  else raiseFault .clockReadFailure (elapse (takeClockOk s))

/-- Sleep: TMR is loaded with `d` and has counted down to 0 when the step goes on, `d` plus the lateness
later (R108, 10_state R22; log entry 19). -/
def sleepFor (d : BitVec 20) (s : State) : State :=
  { s with
    tmr := 0
    env := { s.env with
      now := s.env.now + d.toNat + s.env.nextLat, lats := s.env.lats.tail, tick := s.env.tick + 1 } }

/-- KEY is written and the event appended with the current W (R109, R110). -/
def setKey (on : Bool) (s : State) : State :=
  { s with key := on, trace := s.trace ++ [{ time := s.env.now, on := on }] }

/-- KeyOff (R109). -/
def keyOff (s : State) : State := atOneMoment (setKey false) s

/-- KeyOn (R110). -/
def keyOn (s : State) : State := atOneMoment (setKey true) s

/-- KeyOff, Sleep, KeyOn: a pulse of `d` microseconds and the lateness (R112, R113). -/
def pulseOf (d : Nat) (s : State) : State := keyOn (sleepFor (.ofNat 20 d) (keyOff s))

/-- PULSE, selected by the symbol alone (R112 to R115). The reserved code raises IllegalSymbol (93 U3). -/
def pulse (sy : Symbol) (s : State) : State :=
  if sy = Config.symZero then pulseOf Config.t0Us s
  else if sy = Config.symOne then pulseOf Config.t1Us s
  else if sy = Config.symNone then s
  else raiseFault .illegalSymbol (elapse s)

/-- WAITB, and then the rest of the step (R116). -/
def waitThen (k : State → State) (s : State) : State :=
  clockReadThen (fun t => k (sleepFor (.ofNat 20 Config.secUs - t.us) t)) s

def logStatus (what : StatusInfo) (s : State) : State :=
  { s with status := s.status ++ [{ time := s.env.now, what := what }] }

/-- Status: no effect on any register (R117). -/
def emitStatus (what : StatusInfo) (s : State) : State := atOneMoment (logStatus what) s

/-! ### The end of a step (42_scheduler R99, R104) -/

/-- The write of PC that ends a step, and the time of the step's computation (43 R111). -/
def goto (p : SeqCode) (s : State) : State := { elapse s with pc := p }

/-- After the WAITB of a wait step: the stop request is sampled if the hardware has one, and if it is 1
the next state is IDLE (R104). -/
def unlessStopped (hasStop : Bool) (k : State → State) (s : State) : State :=
  if hasStop then
    if s.env.nextStop then goto Config.pcIdle (takeStop s) else k (takeStop s)
  else k s

/-! ### Reset (70_reset_and_hazards R141 to R143) -/

/-- Reset: every register at its reset value; a carrier held off comes back on, with its event (R143).
What an observer has recorded and the environment stay. -/
def resetCore (s : State) : State :=
  { State.reset with
    trace := if s.key then s.trace else s.trace ++ [{ time := s.env.now, on := true }]
    status := s.status
    env := s.env }

/-- The next pulse of rst, acting on `s`: W goes on to its rise, the core is reset, and W goes on to its
fall (R141). -/
def resetBy (r : ResetPulse) (rest : List ResetPulse) (s : State) : State :=
  let t := resetCore { s with env := { s.env with now := max s.env.now r.rise, resets := rest } }
  { t with env := { t.env with now := t.env.now + r.hold } }

/-- KEY after the given events. -/
def keyAfter : Bool → List KeyEvent → Bool
  | k, [] => k
  | _, e :: r => keyAfter e.on r

/-- What has happened by wall clock `w` of a step that takes `s` to `t`: the events before `w`, and KEY as
they leave it. The other registers do not matter, since reset follows (R141). -/
def cutAt (w : Nat) (s t : State) : State :=
  let evs := (t.trace.drop s.trace.length).filter (fun e => e.time < w)
  { t with
    key := keyAfter s.key evs
    trace := s.trace ++ evs
    status := s.status ++ (t.status.drop s.status.length).filter (fun e => e.time < w)
    env := { t.env with now := w } }

/-- A step under the reset input: reset comes first, between steps and inside one (60 R132, 70 R141). -/
def underReset (s : State) (run : Host.Outcome State Fault Refusal) : Host.Outcome State Fault Refusal :=
  match s.env.resets with
  | [] => run
  | r :: rest =>
    if r.rise ≤ s.env.now then .next (resetBy r rest s)
    else
      match run with
      | .next t => if r.rise < t.env.now then .next (resetBy r rest (cutAt r.rise s t)) else .next t
      | .fault f => .fault f
      | .refused x => .refused x

end Sys2Proof.Machine
end

