-- ==== Sys2Proof/Machine/Flags.lean ====
section
/-!
DEFINITION. The parity accumulators P1, P2, P3, the only flags the encoder writes (10_state R19, R20).
-/
namespace Sys2Proof.Machine

def parityOf (p : ParSel) (s : State) : Bool :=
  match p with
  | .p1 => s.p1
  | .p2 => s.p2
  | .p3 => s.p3

def setParity (p : ParSel) (b : Bool) (s : State) : State :=
  match p with
  | .p1 => { s with p1 := b }
  | .p2 => { s with p2 := b }
  | .p3 => { s with p3 := b }

/-- P <- P xor b (41 R71). -/
def xorParity (p : ParSel) (b : Bool) (s : State) : State := setParity p (parityOf p s ^^ b) s

end Sys2Proof.Machine
end

