-- ==== Sys2Proof/Machine/Operands.lean ====
section
/-!
DEFINITION. How an operation obtains its operands: the calendar's answer as the record CAL (10_state R15),
the conditioned hour and weekday (41 R67, R68), decimal digits (41 R69, R70), and the symbol at IDX
(20_memory R37, R41).
-/
namespace Sys2Proof.Machine

/-- The record CAL that an answer of the time source is (R15, R107). -/
def calOf (a : CalAnswer) : Cal where
  min := .ofNat 6 a.min
  hraw := .ofNat 5 a.hraw
  mday := .ofNat 5 (a.mday + 1)
  wraw := .ofNat 3 a.wraw
  mon := .ofNat 4 (a.mon + 1)
  year2 := .ofNat 7 a.year2
  dst := a.dst
  sec := .ofNat 6 a.sec

/-- Calendar, its answer taken into SEC or CAL (R107). -/
def queryCalendar (dest : CalDest) (count : Nat) (s : State) : State :=
  match dest with
  | .second => { s with sec := (calOf (s.env.calendarAt count)).sec }
  | .fields => { s with cal := calOf (s.env.calendarAt count) }

/-- HRADJ with its addends and modulus as parameters (R67). -/
def adjustHour (offset extra modulus : Nat) (hraw : BitVec 5) (dst : Bool) : BitVec 5 :=
  .ofNat 5 ((hraw.toNat + offset + if dst then extra else 0) % modulus)

/-- HRADJ of this hardware (R6, R67). -/
def hourOf (hraw : BitVec 5) (dst : Bool) : BitVec 5 :=
  adjustHour Config.cetOffsetH Config.dstExtraH Config.hourMod hraw dst

/-- DOWMAP (R68). -/
def dowOf (wraw : BitVec 3) : BitVec 3 := if wraw = Config.sundayRaw then Config.sundayDcf else wraw

/-- BCDU (R69). -/
def unitsDigit (v : BitVec 7) : BitVec 4 := .ofNat 4 (v.toNat % 10)

/-- BCDT: the low `w` bits of the tens digit (R70). -/
def tensDigit (v : BitVec 7) (w : Nat) : BitVec 4 := .ofNat 4 (v.toNat / 10 % 2 ^ w)

/-- MemRead(IDX, 1), and then the rest of the step: an index above 59 is refused (R41), a cell nothing has
written is a fault (R31). -/
def fetchSymbolThen (k : Symbol → State) (s : State) : Host.Outcome State Fault Refusal :=
  if Config.nSym ≤ s.idx.toNat then .refused (.noSuchCell s.idx.toNat)
  else
    match s.frame.read s.idx.toNat with
    | none => .fault (.unwrittenCell s.idx)
    | some sy => .next (k sy)

/-- IDX + 1 in 6 bits (R97); at 63 the result is a free value (R163 g, log entry 12). -/
def nextIdx (i : BitVec 6) : BitVec 6 := if i = 63 then Config.idxAfterOverflow else i + 1

end Sys2Proof.Machine
end

