-- ==== Sys2Proof/Machine/Encoder.lean ====
section
/-!
DEFINITION. The frame encoder (41_frame_encoder R67 to R78): the shared operations, written from the
pseudocode, then the meaning of each FRAME, FIELD and FUNC row. The computation takes time (43 R111).
-/
namespace Sys2Proof.Machine

def writeCell (i : Nat) (v : Symbol) (s : State) : State := { s with frame := s.frame.write i v }

/-- One round of LSBF's loop (R71). -/
def placeBit (b : Bool) (i : Nat) (p : ParSel) (s : State) : State :=
  xorParity p b (writeCell i (symOf b) s)

/-- LSBF's loop from bit `k` on, `n` rounds (R71). -/
def placeBits (g : BitVec 4) (lo : Nat) (p : ParSel) : Nat → Nat → State → State
  | 0, _, s => s
  | n + 1, k, s => placeBits g lo p n (k + 1) (placeBit (g.getLsbD k) (lo + k) p s)

/-- LSBF(g, w, lo, P) (R71). -/
def lsbf (g : BitVec 4) (w lo : Nat) (p : ParSel) (s : State) : State := placeBits g lo p w 0 s

/-- PAR(P, pi) (R74). -/
def parityCell (p : ParSel) (pi : Nat) (s : State) : State := writeCell pi (symOf (parityOf p s)) s

/-- FIXPAT, for a given PREAMBLE (R57, R73). -/
def fixPattern (pre : Nat → Symbol) (s : State) : State :=
  { s with
    frame := ((((s.frame.write 0 Config.f0Sym).writeList 1 (preambleCells pre)).write 19 (pre 19)).write 20
      Config.bit20).write 59 Config.f59Sym }

/-- DSTPAIR (R55, R72). -/
def dstPair (dst : Bool) (s : State) : State := writeCell 18 (symOf (!dst)) (writeCell 17 (symOf dst) s)

/-- BCDU and BCDT of a quantity, placed one after the other: 4 units bits at `lo`, then `w` tens bits. -/
def placeTwoDigits (v : BitVec 7) (w lo : Nat) (p : ParSel) (s : State) : State :=
  lsbf (tensDigit v w) w (lo + 4) p (lsbf (unitsDigit v) 4 lo p s)

/-- ENCMIN (R75). -/
def encodeMinute (min : BitVec 6) (s : State) : State :=
  parityCell .p1 28 (placeTwoDigits (min.setWidth 7) 3 21 .p1 (setParity .p1 false s))

/-- ENCHOUR (R76). -/
def encodeHour (hour : BitVec 5) (s : State) : State :=
  parityCell .p2 35 (placeTwoDigits (hour.setWidth 7) 2 29 .p2 (setParity .p2 false s))

/-- ENCDATE (R77). -/
def encodeDate (mday : BitVec 5) (dow : BitVec 3) (mon : BitVec 4) (year2 : BitVec 7) (s : State) : State :=
  parityCell .p3 58
    (placeTwoDigits year2 4 50 .p3
      (placeTwoDigits (mon.setWidth 7) 1 45 .p3
        (lsbf (dow.setWidth 4) 3 42 .p3
          (placeTwoDigits (mday.setWidth 7) 2 36 .p3 (setParity .p3 false s)))))

def adjustHourStep (hraw : BitVec 5) (dst : Bool) (s : State) : State := { s with hour := hourOf hraw dst }

def mapDowStep (wraw : BitVec 3) (s : State) : State := { s with dow := dowOf wraw }

/-- BUILDFRAME, for a given PREAMBLE (R78). -/
def assembleFrame (pre : Nat → Symbol) (c : CalFields) (s : State) : State :=
  let s := dstPair c.dst (fixPattern pre s)
  let s := mapDowStep c.wraw (adjustHourStep c.hraw c.dst s)
  let s := encodeHour s.hour (encodeMinute c.min s)
  encodeDate c.mday s.dow c.mon c.year2 s

/-! ### FRAME and FIELD -/

/-- BUILDFRAME(CAL) (R78): all 60 cells, HOUR, DOW and the accumulators. -/
def execBuildFrame (cal : CalFields) (s : State) : Host.Outcome State Fault Refusal :=
  .next (elapse (assembleFrame Config.preamble cal s))

/-- FIXPAT() (R73). -/
def execFixPat (s : State) : Host.Outcome State Fault Refusal :=
  .next (elapse (fixPattern Config.preamble s))

/-- DSTPAIR(dst) (R72). -/
def execDstPair (dst : Bool) (s : State) : Host.Outcome State Fault Refusal :=
  .next (elapse (dstPair dst s))

/-- ENCMIN(min) (R75). -/
def execEncMin (min : BitVec 6) (s : State) : Host.Outcome State Fault Refusal :=
  .next (elapse (encodeMinute min s))

/-- ENCHOUR(HOUR) (R76). -/
def execEncHour (hour : BitVec 5) (s : State) : Host.Outcome State Fault Refusal :=
  .next (elapse (encodeHour hour s))

/-- ENCDATE(mday, DOW, mon, year2) (R77). -/
def execEncDate (mday : BitVec 5) (dow : BitVec 3) (mon : BitVec 4) (year2 : BitVec 7) (s : State) :
    Host.Outcome State Fault Refusal :=
  .next (elapse (encodeDate mday dow mon year2 s))

/-! ### FUNC -/

/-- HRADJ(hraw, dst): HOUR is written (R67). -/
def execHrAdj (hraw : BitVec 5) (dst : Bool) (s : State) : Host.Outcome State Fault Refusal :=
  .next (elapse (adjustHourStep hraw dst s))

/-- DOWMAP(wraw): DOW is written (R68). -/
def execDowMap (wraw : BitVec 3) (s : State) : Host.Outcome State Fault Refusal :=
  .next (elapse (mapDowStep wraw s))

/-- BCDU(v): the digit is left in digU (R69, log entry 7). -/
def execBcdU (v : BitVec 7) (s : State) : Host.Outcome State Fault Refusal :=
  .next (elapse { s with digU := unitsDigit v })

/-- BCDT(v, w): the digit is left in digT (R70, log entry 7). -/
def execBcdT (v : BitVec 7) (w : BitVec 3) (s : State) : Host.Outcome State Fault Refusal :=
  .next (elapse { s with digT := tensDigit v w.toNat })

/-- LSBF(g, w, lo, P) (R71); a cell above 59 does not exist (R34, R41). -/
def execLsbF (g : BitVec 4) (w : BitVec 3) (lo : BitVec 6) (p : ParSel) (s : State) :
    Host.Outcome State Fault Refusal :=
  if 0 < w.toNat ∧ Config.nSym < lo.toNat + w.toNat then .refused (.noSuchCell (lo.toNat + w.toNat - 1))
  else .next (elapse (lsbf g w.toNat lo.toNat p s))

/-- PAR(P, pi) (R74); a cell above 59 does not exist (R34, R41). -/
def execPar (p : ParSel) (pi : BitVec 6) (s : State) : Host.Outcome State Fault Refusal :=
  if Config.nSym ≤ pi.toNat then .refused (.noSuchCell pi.toNat)
  else .next (elapse (parityCell p pi.toNat s))

end Sys2Proof.Machine
end

