-- ==== Sys2Proof/Machine/Primitives.lean ====
section
/-!
DEFINITION. The meaning of each SYM row, a symbol executed as a pulse (30_encoding R50, 43 R112 to R114),
and of each PRIM row (43_pulse_and_timer, 60_exceptions R122, 70 R141). None of them writes PC, except
raise and reset.
-/
namespace Sys2Proof.Machine

/-! ### SYM -/

/-- SYM0: PULSE(ZERO) (R112). -/
def execSym0 (s : State) : Host.Outcome State Fault Refusal := .next (pulse Config.symZero s)

/-- SYM1: PULSE(ONE) (R113). -/
def execSym1 (s : State) : Host.Outcome State Fault Refusal := .next (pulse Config.symOne s)

/-- SYMN: PULSE(NONE), which does nothing (R114). -/
def execSymN (s : State) : Host.Outcome State Fault Refusal := .next (pulse Config.symNone s)

/-- The reserved symbol raises IllegalSymbol, with no key event (R60, R124). -/
def execSymReserved (s : State) : Host.Outcome State Fault Refusal := .next (pulse Config.symReserved s)

/-! ### PRIM -/

/-- ClockRead (R106). -/
def execClockRead (s : State) : Host.Outcome State Fault Refusal := .next (clockReadThen id s)

/-- Calendar(s), for SEC or for CAL (R107). -/
def execCalendar (dest : CalDest) (count : Nat) (s : State) : Host.Outcome State Fault Refusal :=
  .next (elapse (queryCalendar dest count s))

/-- Sleep(d) (R108). -/
def execSleep (d : BitVec 20) (s : State) : Host.Outcome State Fault Refusal := .next (sleepFor d s)

/-- KeyOff (R109). -/
def execKeyOff (s : State) : Host.Outcome State Fault Refusal := .next (keyOff s)

/-- KeyOn (R110). -/
def execKeyOn (s : State) : Host.Outcome State Fault Refusal := .next (keyOn s)

/-- PULSE(s) (R115; the reserved symbol: 93 U3, log entry 11). -/
def execPulse (sy : Symbol) (s : State) : Host.Outcome State Fault Refusal := .next (pulse sy s)

/-- WAITB (R116). -/
def execWaitB (s : State) : Host.Outcome State Fault Refusal := .next (waitThen id s)

/-- Status (R117). -/
def execStatus (what : StatusInfo) (s : State) : Host.Outcome State Fault Refusal :=
  .next (emitStatus what s)

/-- raise X (R122), for each of the four codes of R121. The core itself never raises codes 1 and 2 (R125, R126);
that a wrapper's report of them is this row, and so sends PC to HALT, is the model's choice (log entry 27). -/
def execRaise (x : CoreFault) (s : State) : Host.Outcome State Fault Refusal :=
  .next (elapse (raiseFault x s))

/-- reset (R141 to R143). -/
def execReset (s : State) : Host.Outcome State Fault Refusal := .next (resetCore s)

end Sys2Proof.Machine
end

