-- ==== Sys2Proof/Machine/Sequencer.lean ====
section
/-!
DEFINITION. The meaning of each SEQ row: the sequencer's micro-operations (42_scheduler R88 to R98), each
ending with the write of PC (R99), and the unused codes (30_encoding R62).
-/
namespace Sys2Proof.Machine

/-- A wait state: WAITB, the stop request if there is one, and the rest of the step (R90, R104). -/
def waitStep (hasStop : Bool) (k : State → State) (s : State) : State :=
  waitThen (unlessStopped hasStop k) s

/-- The end of ACQ_POLL: the second of minute decides (R89). -/
def pollDecision (s : State) : State :=
  goto (if s.sec = Config.acqSec then Config.pcS59Emit else Config.pcAcqWait) s

/-- ACQ_POLL after its clock read (R89). -/
def pollStep (s : State) : State :=
  let s := elapse (queryCalendar .second s.secs s)
  pollDecision (emitStatus (.sync s.sec) s)

/-- BUILD after its clock read (R95). -/
def buildStep (s : State) : State :=
  let s := elapse (queryCalendar .fields (s.secs + Config.advS) s)
  goto Config.pcDEmit { assembleFrame Config.preamble s.cal.toCalFields s with idx := Config.firstData }

/-- D_EMIT after its symbol fetch (R96, R124). -/
def emitStep (sy : Symbol) (s : State) : State :=
  if sy = Config.symReserved then raiseFault .illegalSymbol (elapse s)
  else goto Config.pcDWait (pulse sy (emitStatus (.emit s.idx sy) s))

/-- D_WAIT after its wait (R97). -/
def advanceStep (s : State) : State :=
  if s.idx = Config.lastData then goto Config.pcS59Emit s
  else goto Config.pcDEmit { s with idx := nextIdx s.idx }

/-- A state in which the core does nothing: time passes, no register changes (R98, R62). -/
def stayStep (s : State) : State := elapse s

/-- IDLE (R88). -/
def execIdle (s : State) : Host.Outcome State Fault Refusal :=
  .next (goto (if s.env.nextStart then Config.pcAcqPoll else Config.pcIdle) (takeStart s))

/-- ACQ_POLL (R89). -/
def execAcqPoll (s : State) : Host.Outcome State Fault Refusal := .next (clockReadThen pollStep s)

/-- ACQ_WAIT (R90). -/
def execAcqWait (s : State) : Host.Outcome State Fault Refusal :=
  .next (waitStep Config.hasStop (goto Config.pcAcqPoll) s)

/-- S59_EMIT (R91). -/
def execS59Emit (s : State) : Host.Outcome State Fault Refusal :=
  .next (goto Config.pcS59Wait (pulse Config.gapSym (emitStatus (.emit 59 Config.gapSym) s)))

/-- S59_WAIT (R92). -/
def execS59Wait (s : State) : Host.Outcome State Fault Refusal :=
  .next (waitStep Config.hasStop (goto Config.pcS0Emit) s)

/-- S0_EMIT (R93). -/
def execS0Emit (s : State) : Host.Outcome State Fault Refusal :=
  .next (goto Config.pcS0Wait (pulse Config.startSym (emitStatus (.emit 0 Config.startSym) s)))

/-- S0_WAIT (R94). -/
def execS0Wait (s : State) : Host.Outcome State Fault Refusal :=
  .next (waitStep Config.hasStop (goto Config.pcBuild) s)

/-- BUILD (R95). -/
def execBuild (s : State) : Host.Outcome State Fault Refusal := .next (clockReadThen buildStep s)

/-- D_EMIT (R96). -/
def execDEmit (s : State) : Host.Outcome State Fault Refusal := fetchSymbolThen (fun sy => emitStep sy s) s

/-- D_WAIT (R97). -/
def execDWait (s : State) : Host.Outcome State Fault Refusal :=
  .next (waitStep Config.hasStop advanceStep s)

/-- HALT (R98). -/
def execHalt (s : State) : Host.Outcome State Fault Refusal :=
  .next (stayStep { s with pc := Config.pcHalt })

/-- Unused code 1010: stuck, as HALT (R62, 93 U4; log entry 10). -/
def execSeqUnused1010 (s : State) : Host.Outcome State Fault Refusal := .next (stayStep s)

/-- Unused code 1011 (R62, 93 U4). -/
def execSeqUnused1011 (s : State) : Host.Outcome State Fault Refusal := .next (stayStep s)

/-- Unused code 1100 (R62, 93 U4). -/
def execSeqUnused1100 (s : State) : Host.Outcome State Fault Refusal := .next (stayStep s)

/-- Unused code 1101 (R62, 93 U4). -/
def execSeqUnused1101 (s : State) : Host.Outcome State Fault Refusal := .next (stayStep s)

/-- Unused code 1110 (R62, 93 U4). -/
def execSeqUnused1110 (s : State) : Host.Outcome State Fault Refusal := .next (stayStep s)

end Sys2Proof.Machine
end

