-- ==== Sys2Proof/Machine/Dispatch.lean ====
section
/-!
DEFINITION. The dispatch: one arm per row of opcode_table.json, in the table's order.
-/
namespace Sys2Proof.Machine

def exec (i : Instr) (s : State) : Host.Outcome State Fault Refusal :=
  match i with
  | .sym0 => Sys2Proof.Machine.execSym0 s
  | .sym1 => Sys2Proof.Machine.execSym1 s
  | .symN => Sys2Proof.Machine.execSymN s
  | .symReserved => Sys2Proof.Machine.execSymReserved s
  | .idle => Sys2Proof.Machine.execIdle s
  | .acqPoll => Sys2Proof.Machine.execAcqPoll s
  | .acqWait => Sys2Proof.Machine.execAcqWait s
  | .s59Emit => Sys2Proof.Machine.execS59Emit s
  | .s59Wait => Sys2Proof.Machine.execS59Wait s
  | .s0Emit => Sys2Proof.Machine.execS0Emit s
  | .s0Wait => Sys2Proof.Machine.execS0Wait s
  | .build => Sys2Proof.Machine.execBuild s
  | .dEmit => Sys2Proof.Machine.execDEmit s
  | .dWait => Sys2Proof.Machine.execDWait s
  | .halt => Sys2Proof.Machine.execHalt s
  | .seqUnused1010 => Sys2Proof.Machine.execSeqUnused1010 s
  | .seqUnused1011 => Sys2Proof.Machine.execSeqUnused1011 s
  | .seqUnused1100 => Sys2Proof.Machine.execSeqUnused1100 s
  | .seqUnused1101 => Sys2Proof.Machine.execSeqUnused1101 s
  | .seqUnused1110 => Sys2Proof.Machine.execSeqUnused1110 s
  | .buildFrame cal => Sys2Proof.Machine.execBuildFrame cal s
  | .fixPat => Sys2Proof.Machine.execFixPat s
  | .dstPair dst => Sys2Proof.Machine.execDstPair dst s
  | .encMin min => Sys2Proof.Machine.execEncMin min s
  | .encHour hour => Sys2Proof.Machine.execEncHour hour s
  | .encDate mday dow mon year2 => Sys2Proof.Machine.execEncDate mday dow mon year2 s
  | .hrAdj hraw dst => Sys2Proof.Machine.execHrAdj hraw dst s
  | .dowMap wraw => Sys2Proof.Machine.execDowMap wraw s
  | .bcdU v => Sys2Proof.Machine.execBcdU v s
  | .bcdT v w => Sys2Proof.Machine.execBcdT v w s
  | .lsbF g w lo p => Sys2Proof.Machine.execLsbF g w lo p s
  | .par p pi => Sys2Proof.Machine.execPar p pi s
  | .clockRead => Sys2Proof.Machine.execClockRead s
  | .calendar dest count => Sys2Proof.Machine.execCalendar dest count s
  | .sleep d => Sys2Proof.Machine.execSleep d s
  | .keyOff => Sys2Proof.Machine.execKeyOff s
  | .keyOn => Sys2Proof.Machine.execKeyOn s
  | .pulse sy => Sys2Proof.Machine.execPulse sy s
  | .waitB => Sys2Proof.Machine.execWaitB s
  | .status what => Sys2Proof.Machine.execStatus what s
  | .raise x => Sys2Proof.Machine.execRaise x s
  | .reset => Sys2Proof.Machine.execReset s

end Sys2Proof.Machine
end

