-- ==== Sys2Proof/Machine/Fetch.lean ====
section
/-!
DEFINITION. What the sequencer runs next (10_state R17, 30_encoding R58), and how a word of the table is
placed where the next step runs it (log entry 16).
-/
namespace Sys2Proof.Machine

/-- The micro-operation that PC names (R17, R58). -/
def fetchInstr (s : State) : Instr := decodeSeq s.pc

/-- The time source's answer that gives these operands of BUILDFRAME. -/
def answerFor (c : CalFields) : CalAnswer where
  sec := 1
  min := .ofNat 60 c.min.toNat
  hraw := .ofNat 24 c.hraw.toNat
  mday := .ofNat 31 (c.mday.toNat - 1)
  wraw := .ofNat 7 c.wraw.toNat
  mon := .ofNat 12 (c.mon.toNat - 1)
  year2 := .ofNat 100 c.year2.toNat
  dst := c.dst

/-- The machine about to run the stored code `c`, which is that of `i`: a state code stands in PC; a
symbol stands in cell 1 with D_EMIT about to fetch it; a frame's operands are the time source's next
answer with BUILD about to run; a field group is a part of what BUILD runs. No reset is pending. -/
def placeCode (c : Code) (i : Instr) (s : State) : State :=
  let env := { s.env with resets := [] }
  match c with
  | .seq b => { s with pc := b, env := env }
  | .sym b =>
    { s with pc := Config.pcDEmit, idx := Config.firstData, frame := s.frame.write 1 b, env := env }
  | .field _ _ => { s with pc := Config.pcBuild, env := env }
  | .frame _ =>
    match i with
    | .buildFrame cal =>
      { s with
        pc := Config.pcBuild
        env := { env with
          clockOks := true :: env.clockOks
          durs := 0 :: env.durs
          calendar := (env.now / Config.secUs + Config.advS, answerFor cal) :: env.calendar } }
    | _ => { s with pc := Config.pcBuild, env := env }

/-- The state with a table word placed; a word that decodes to nothing changes nothing. -/
def placeTableWord (nbits w : Nat) (s : State) : State :=
  match firstDecoded (tableWordCodes nbits w) with
  | none => s
  | some (c, i) => placeCode c i s

end Sys2Proof.Machine
end

