-- ==== Sys2Proof/Machine/Step.lean ====
section
/-!
DEFINITION. One step: the micro-operation that PC names (42_scheduler), under the reset input (70 R141).
-/
namespace Sys2Proof.Machine

def step (s : State) : Host.Outcome State Fault Refusal := underReset s (exec (fetchInstr s) s)

/-- A word of the table placed where step runs it next (log entry 16). -/
def State.withFetchWord (s : State) (nbits w : Nat) : State := placeTableWord nbits w s

end Sys2Proof.Machine
end

