-- ==== Sys2Proof/Safety.lean ====
section
/-!
DEFINITION. What counts as a sound state of the core, and the words in which claims speak of frames,
pulses and time.
-/
namespace Sys2Proof.Safety

open Sys2Proof.Machine

/-- The eleven values PC takes (10_state R17). -/
def legalPcs : List SeqCode :=
  [Config.pcIdle, Config.pcAcqPoll, Config.pcAcqWait, Config.pcS59Emit, Config.pcS59Wait, Config.pcS0Emit,
    Config.pcS0Wait, Config.pcBuild, Config.pcDEmit, Config.pcDWait, Config.pcHalt]

/-- Every cell that a data second sends holds ZERO or ONE (42 R96, 30 R61). -/
abbrev Transmittable (f : Frame) : Prop :=
  ∀ i < 59, 1 ≤ i → f.read i = some Config.symZero ∨ f.read i = some Config.symOne

/-- What every run keeps between steps: PC names a state (R17), IDX and the frame are fit to be sent in
the data seconds (R18, R31, R43), the carrier is on and the trace says so (R21), no sleep runs (R22), a
fault is recorded exactly when the core is halted (R23, R122), and F is in canonical form. -/
structure Sound (s : State) : Prop where
  frameCanonical : s.frame.wf = true
  pcLegal : s.pc ∈ legalPcs
  carrierOn : s.key = true
  traceAgrees : keyAfter true s.trace = s.key
  timerIdle : s.tmr = 0
  faultCoded : s.fault.toNat ≤ 4
  haltedIffFaulted : s.pc = Config.pcHalt ↔ s.fault ≠ 0
  dataPhase : s.pc = Config.pcDEmit ∨ s.pc = Config.pcDWait →
    1 ≤ s.idx.toNat ∧ s.idx.toNat ≤ 58 ∧ Transmittable s.frame

/-- The bit a cell of the frame holds; false for a cell that holds no ONE. -/
def bitAt (f : Frame) (i : Nat) : Bool := f.read i == some Config.symOne

/-- The exclusive-or of `n` cells from `lo` on (30 R56). -/
def xorCells (f : Frame) (lo n : Nat) : Bool := xorAll ((List.range' lo n).map (bitAt f))

/-- The number in `w` cells from `lo` on, `val(lo, w)` of 41 R83. -/
def valAt (f : Frame) (lo w : Nat) : Nat := valueOf ((List.range' lo w).map (bitAt f))

/-- What an operation never changes of the environment, and that time does not run backwards (43 R105,
R111): Calendar is one function, and the schedule of rst is the host's. -/
def EnvKept (s t : State) : Prop :=
  t.env.calendar = s.env.calendar ∧ t.env.resets = s.env.resets ∧ s.env.now ≤ t.env.now

/-- From `s` to `t` the carrier was held off once, for at least `d` microseconds (43 R112, R113). -/
def OnePulse (d : Nat) (s t : State) : Prop :=
  ∃ off on, t.trace = s.trace ++ [{ time := off, on := false }, { time := on, on := true }] ∧
    s.env.now ≤ off ∧ off + d ≤ on ∧ on ≤ t.env.now

/-- What entering a fault leaves of `s`: the first code is kept and PC is HALT (60 R122). -/
def Raised (x : CoreFault) (s t : State) : Prop :=
  t = { s with fault := if s.fault = 0 then faultCode x else s.fault, pc := Config.pcHalt, env := t.env }

end Sys2Proof.Safety
end

