-- ==== Sys2Proof/Certificates/Slice0/Obligations.lean ====
section
/-!
DEFINITION. The statements for the provers, in the order of OBLIGATIONS.json. Each docstring names the rules
of the spec that the statement formalises. An environment answer that a statement leaves unnamed (a time, a
lateness, an answer of the time source) is a free value: the statement holds for every value of it.
-/

open Sys2Proof Sys2Proof.Machine Sys2Proof.Safety

/-! ### Reset and the step -/

/-- R30, R31: what reset leaves, for the registers the spec gives a value; no cell of F holds a value (that an
unwritten cell reads as none is log entry 8). -/
def Obligations.ResetLeavesStatedValues : Prop :=
  State.reset.pc = 0 ∧ State.reset.idx = 0 ∧ State.reset.key = true ∧ State.reset.tmr = 0 ∧
    State.reset.fault = 0 ∧ ∀ i, State.reset.frame.read i = none

/-- R141, R142, R143: reset from any state, HALT and a pulse included, leaves the reset state; a carrier that
was off comes on, with an ON event at the time of the reset. That the transients are then zero is the model's
choice (log entry 5), and that the status lines stay recorded too (log entry 18). -/
def Obligations.ResetActsFromAnyState : Prop :=
  ∀ s, exec .reset s = .next
    { State.reset with
      trace := if s.key then s.trace else s.trace ++ [{ time := s.env.now, on := true }]
      status := s.status
      env := s.env }

/-- R17: while no reset is due, a step is exec of the micro-operation that PC names, and nothing is added to it;
a scheduled reset that rises later than the step's end does not touch it (the schedule: log entry 4). -/
def Obligations.StepRunsDecodedState : Prop :=
  ∀ s i, decode (.seq s.pc) = .ok i →
    (s.env.resets = [] → step s = exec i s) ∧
    (∀ r rest t, s.env.resets = r :: rest → s.env.now < r.rise → exec i s = .next t → t.env.now ≤ r.rise →
      step s = .next t)

/-- R132, R141, R143: a reset that is due acts before the step; one that rises while the step runs ends it
there: PC, IDX, TMR, FAULT are reset, no cell of F holds a value, KEY is 1, no event of the step from
that moment on has happened, and a carrier held off at that moment comes on with an ON event at the rise. That
an event of the very microsecond of the rise has not happened is the model's choice (log entry 4). -/
def Obligations.ResetActsInsideAStep : Prop :=
  ∀ s r rest, s.env.resets = r :: rest →
    (r.rise ≤ s.env.now → ∃ t, step s = .next t ∧ t.pc = 0 ∧ t.idx = 0 ∧ t.key = true ∧ t.tmr = 0 ∧
      t.fault = 0 ∧ (∀ i, t.frame.read i = none) ∧ t.env.resets = rest ∧ t.env.now = s.env.now + r.hold ∧
      t.trace = if s.key then s.trace else s.trace ++ [{ time := s.env.now, on := true }]) ∧
    (∀ u, s.env.now < r.rise → exec (decodeSeq s.pc) s = .next u → r.rise < u.env.now →
      ∃ t, step s = .next t ∧ t.pc = 0 ∧ t.idx = 0 ∧ t.key = true ∧ t.tmr = 0 ∧ t.fault = 0 ∧
        (∀ i, t.frame.read i = none) ∧ t.env.resets = rest ∧ t.env.now = r.rise + r.hold ∧
        ∃ evs, evs = (u.trace.drop s.trace.length).filter (fun e => e.time < r.rise) ∧
          t.trace = if keyAfter s.key evs then s.trace ++ evs
            else s.trace ++ evs ++ [{ time := r.rise, on := true }])

/-- Safety.Sound holds right after reset (R30; the empty trace and schedule are log entries 1 to 4). -/
def Obligations.SoundAtReset : Prop := Sound State.reset

/-- From every sound state the step has a successor and it is sound: no run faults, none is refused, PC stays
legal (R17), the carrier is on between steps (R21), the data seconds always have a complete frame and an index
in 1..58 (R18, R31, R43), FAULT and HALT agree (R23, R122). -/
def Obligations.SoundnessKeptByEveryStep : Prop :=
  ∀ s, Sound s → ∃ t, step s = .next t ∧ Sound t

/-- R34: the frame's canonical form, the indices rising and all below 60, is kept by every instruction, whatever
its operands. -/
def Obligations.FrameStaysCanonical : Prop :=
  ∀ i s t, s.frame.wf = true → exec i s = .next t → t.frame.wf = true

/-- R105, R111: no step turns the clock back, under any schedule of rst. -/
def Obligations.TimeNeverRunsBackwards : Prop :=
  ∀ s t, step s = .next t → s.env.now ≤ t.env.now

/-! ### Codes -/

/-- R50 to R58: decoding an instruction's code gives the instruction, for every well-formed instruction that has
one. The form of the FRAME and FIELD codes is the model's (log entry 23), and the fixed cells are log entry 9's. -/
def Obligations.DecodeOfEncodeIsIdentity : Prop :=
  ∀ i c, i.wellFormed = true → encode i = some c → decode c = .ok i

/-- R61: a code that decodes is the code of the instruction it decodes to, and that instruction is well formed, so
no value that R61 says is never produced decodes to an operation (log entries 9 and 23). -/
def Obligations.DecodedCodesAreEncodings : Prop :=
  ∀ c i, decode c = .ok i → encode i = some c ∧ i.wellFormed = true

/-- R50, R58, R62 and the frame strings of 95_test_vectors V1: codes written out from the spec. -/
def Obligations.SpecCodesDecode : Prop :=
  decode (.sym 0b00) = .ok .sym0 ∧ decode (.sym 0b01) = .ok .sym1 ∧ decode (.sym 0b10) = .ok .symN ∧
  decode (.sym 0b11) = .ok .symReserved ∧ decode (.seq 0b0000) = .ok .idle ∧
  decode (.seq 0b0111) = .ok .build ∧ decode (.seq 0b1000) = .ok .dEmit ∧ decode (.seq 0b1111) = .ok .halt ∧
  decode (.seq 0b1100) = .ok .seqUnused1100 ∧
  decode (.field 21 ([1, 1, 1, 0, 0, 1, 0, 0].map some)) = .ok (.encMin 27) ∧
  decode (.field 29 ([1, 0, 1, 0, 1, 0, 1].map some)) = .ok (.encHour 15) ∧
  decode (.field 17 ([0, 1].map some)) = .ok (.dstPair false)

/-! ### Symbols and pulses -/

/-- R112, R113: executing ZERO or ONE is KeyOff, a sleep of 100,000 or 200,000 microseconds or longer, KeyOn;
KEY ends at 1, TMR at 0 (log entry 19), and nothing else is written. -/
def Obligations.BitSymbolsMakeOnePulse : Prop :=
  ∀ i d s, (i, d) ∈ [(Instr.sym0, 100000), (.pulse 0, 100000), (.sym1, 200000), (.pulse 1, 200000)] →
    ∃ t, exec i s = .next t ∧ OnePulse d s t ∧ EnvKept s t ∧
      t = { s with key := true, tmr := 0, trace := t.trace, env := t.env } ∧
      ∀ a, t.frame.read a = s.frame.read a

/-- R114: NONE does nothing: no key event, no sleep, no state written. -/
def Obligations.NoneSymbolDoesNothing : Prop :=
  ∀ i s, i ∈ [Instr.symN, .pulse 2] → exec i s = .next s

/-- R60, R124, 93 U3; that PULSE and the SYM_RESERVED row raise it themselves is the model's choice (log entry
11): the reserved symbol raises IllegalSymbol, with no key event. -/
def Obligations.ReservedSymbolRaisesIllegalSymbol : Prop :=
  ∀ i s, i ∈ [Instr.symReserved, .pulse 3] →
    ∃ t, exec i s = .next t ∧ Raised .illegalSymbol s t ∧ EnvKept s t

/-- R119: with the durations and the lateness named, the carrier goes off after `a` and is off for the nominal
time, the lateness and the durations around the sleep, and nothing more. That a key call acts between two
durations is the model's form (log entry 20). -/
def Obligations.CarrierOffTimeIsNominalPlusLateness : Prop :=
  ∀ i d s a b c e l durs lats, (i, d) ∈ [(Instr.sym0, 100000), (.sym1, 200000)] →
    s.env.durs = a :: b :: c :: e :: durs → s.env.lats = l :: lats →
    ∃ t, exec i s = .next t ∧
      t.trace = s.trace ++ [{ time := s.env.now + a, on := false },
        { time := s.env.now + a + b + d + l + c, on := true }]

/-! ### The sequencer -/

/-- R88: IDLE goes to ACQ_POLL when start is 1 and stays when it is 0; nothing else is written, and no
other instruction samples start. -/
def Obligations.IdleWaitsForStart : Prop :=
  (∀ s, ∃ t, exec .idle s = .next t ∧ EnvKept s t ∧
    t = { s with pc := if s.env.nextStart then 1 else 0, env := t.env }) ∧
  (∀ i s t, i ≠ .idle → exec i s = .next t → t.env.starts = s.env.starts)

/-- R89: ACQ_POLL reads the clock at a time w within the step, takes the second of minute from the time
source, and leaves acquisition exactly if it is 59; a failed read raises ClockReadFailure. -/
def Obligations.PollLeavesAcquisitionAt59 : Prop :=
  ∀ s, ∃ t, exec .acqPoll s = .next t ∧ EnvKept s t ∧
    if s.env.nextClockOk then
      ∃ w u sec, s.env.now ≤ w ∧ w ≤ u ∧ u ≤ t.env.now ∧
        sec = (calOf (s.env.calendarAt (w / 1000000))).sec ∧
        t = { s with
          secs := w / 1000000, us := BitVec.ofNat 20 (w % 1000000), sec := sec
          pc := if sec = 59 then 3 else 2
          status := s.status ++ [{ time := u, what := .sync sec }], env := t.env }
    else Raised .clockReadFailure s t

/-- R90, R92, R94: the wait states read the clock at a time w within the step, sleep to the next second
boundary or later, and go on to ACQ_POLL, S0_EMIT and BUILD; a failed read raises ClockReadFailure with no
sleep. This hardware has no stop input (HAS_STOP false, R7). -/
def Obligations.WaitStatesReachTheBoundary : Prop :=
  ∀ i p s, (i, p) ∈ [(Instr.acqWait, (1 : SeqCode)), (.s59Wait, 5), (.s0Wait, 7)] →
    ∃ t, exec i s = .next t ∧ EnvKept s t ∧
      if s.env.nextClockOk then
        ∃ w, s.env.now ≤ w ∧ (w / 1000000 + 1) * 1000000 ≤ t.env.now ∧
          t = { s with
            secs := w / 1000000, us := BitVec.ofNat 20 (w % 1000000), tmr := 0, pc := p, env := t.env }
      else Raised .clockReadFailure s t

/-- R91: S59_EMIT sends nothing: KEY and the key events are untouched, and PC goes to S59_WAIT. -/
def Obligations.GapSecondSendsNothing : Prop :=
  ∀ s, ∃ t, exec .s59Emit s = .next t ∧ EnvKept s t ∧ ∃ u, s.env.now ≤ u ∧ u ≤ t.env.now ∧
    t = { s with pc := 4, status := s.status ++ [{ time := u, what := .emit 59 2 }], env := t.env }

/-- R93: S0_EMIT sends one pulse, of at least 200,000 microseconds, in every state, and PC goes to S0_WAIT; what
the excess is made of, StartSecondIsExact says. -/
def Obligations.StartSecondSendsFixedPulse : Prop :=
  ∀ s, ∃ t, exec .s0Emit s = .next t ∧ EnvKept s t ∧ OnePulse 200000 s t ∧ ∃ u, s.env.now ≤ u ∧
    t = { s with
      key := true, tmr := 0, pc := 6, trace := t.trace
      status := s.status ++ [{ time := u, what := .emit 0 1 }], env := t.env }

/-- R95: BUILD reads the clock at a time w within the step, takes CAL for the instant 60 seconds later, writes
the whole frame of that CAL, sets IDX to 1 and goes to D_EMIT; if the read fails, F and IDX are not written. -/
def Obligations.BuildWritesTheCompleteFrame : Prop :=
  ∀ s, ∃ t, exec .build s = .next t ∧ EnvKept s t ∧
    if s.env.nextClockOk then
      ∃ w c, s.env.now ≤ w ∧ w ≤ t.env.now ∧ c = calOf (s.env.calendarAt (w / 1000000 + 60)) ∧
        (∀ i < 60, t.frame.read i = (frameCells (fun _ => 1) c.toCalFields)[i]?) ∧
        t = { s with
          frame := t.frame, idx := 1, pc := 8, cal := c
          secs := w / 1000000, us := BitVec.ofNat 20 (w % 1000000)
          hour := t.hour, dow := t.dow, p1 := t.p1, p2 := t.p2, p3 := t.p3, env := t.env }
    else Raised .clockReadFailure s t

/-- R96: D_EMIT fetches the symbol at IDX and executes it, then goes to D_WAIT; the reserved code raises
IllegalSymbol before any key event; F and IDX are not written. -/
def Obligations.DataSecondSendsItsCell : Prop :=
  ∀ s sy, s.idx.toNat < 60 → s.frame.read s.idx.toNat = some sy →
    ∃ t, exec .dEmit s = .next t ∧ EnvKept s t ∧
      if sy = 3 then Raised .illegalSymbol s t
      else ∃ u, s.env.now ≤ u ∧ u ≤ t.env.now ∧
        if sy = 2 then
          t = { s with pc := 9, status := s.status ++ [{ time := u, what := .emit s.idx sy }], env := t.env }
        else
          OnePulse (if sy = 1 then 200000 else 100000) s t ∧
          t = { s with
            key := true, tmr := 0, pc := 9, trace := t.trace
            status := s.status ++ [{ time := u, what := .emit s.idx sy }], env := t.env }

/-- R31, R41, 93 U1, U16 (the names are log entry 8's): D_EMIT stops where IDX names no cell and where nothing has
written the cell. -/
def Obligations.DataSecondStopsWithoutACell : Prop :=
  ∀ s, (60 ≤ s.idx.toNat → exec .dEmit s = .refused (.noSuchCell s.idx.toNat)) ∧
    (s.idx.toNat < 60 → s.frame.read s.idx.toNat = none → exec .dEmit s = .fault (.unwrittenCell s.idx))

/-- R97: D_WAIT waits for the boundary; at IDX 58 the cycle starts again with IDX left at 58, else IDX goes up
by one and PC to D_EMIT; at 63, which no run reaches, IDX is then a free value (log entry 12). -/
def Obligations.DataWaitAdvancesTheIndex : Prop :=
  ∀ s, ∃ t, exec .dWait s = .next t ∧ EnvKept s t ∧
    if s.env.nextClockOk then
      ∃ w idx, s.env.now ≤ w ∧ (w / 1000000 + 1) * 1000000 ≤ t.env.now ∧
        (s.idx ≠ 63 → idx = if s.idx = 58 then 58 else s.idx + 1) ∧
        t = { s with
          secs := w / 1000000, us := BitVec.ofNat 20 (w % 1000000), tmr := 0, idx := idx
          pc := if s.idx = 58 then 3 else 8, env := t.env }
    else Raised .clockReadFailure s t

/-- R98, R128, R130: a halted core stays halted: nothing changes, whatever the step, until reset. -/
def Obligations.HaltChangesNothing : Prop :=
  (∀ s, s.pc = 15 → ∃ t, exec .halt s = .next t ∧ EnvKept s t ∧ t = { s with env := t.env }) ∧
  (∀ s, ∃ t, exec .halt s = .next t ∧ EnvKept s t ∧ t = { s with pc := 15, env := t.env }) ∧
  (∀ s t, s.pc = 15 → s.env.resets = [] → step s = .next t → t = { s with env := t.env })

/-- R62, 93 U4 (stuck rather than writing PC: log entry 10): an unused code of PC changes nothing. -/
def Obligations.UnusedStatesAreStuck : Prop :=
  ∀ i s, i ∈ [Instr.seqUnused1010, .seqUnused1011, .seqUnused1100, .seqUnused1101, .seqUnused1110] →
    ∃ t, exec i s = .next t ∧ EnvKept s t ∧ t = { s with env := t.env }

/-- R99: the complete transition relation: where PC may stand after a step that no reset touches. -/
def Obligations.TransitionsAreThoseOfTheTable : Prop :=
  ∀ s t, s.env.resets = [] → step s = .next t → s.pc ∈ legalPcs →
    (t.pc = 15 ∧ (s.pc = 15 ∨ t.fault ≠ 0)) ∨
    (t.fault = s.fault ∧ (s.pc, t.pc) ∈
      [(0, 0), (0, 1), (1, 3), (1, 2), (2, 1), (3, 4), (4, 5), (5, 6), (6, 7), (7, 8), (8, 9), (9, 8), (9, 3)] ∧
      (s.pc = 9 → (t.pc = 3 ↔ s.idx = 58)))

/-- R104: were the hardware built with a stop input, a wait step that samples it at 1 would end in IDLE with
IDX, F and KEY kept, whatever the wait would have gone on to (so in D_WAIT too, which would have written IDX);
sampled at 0 it would go on. Over the shared operation, with HAS_STOP as its argument (log entry 17). -/
def Obligations.StopRequestEndsAWaitInIdle : Prop :=
  ∀ s p, s.env.nextClockOk = true → s.env.stopReqs ≠ [] →
    (s.env.stopReqs.head? = some true → ∀ k, (waitStep true k s).pc = 0 ∧ (waitStep true k s).idx = s.idx ∧
      (waitStep true k s).frame = s.frame ∧ (waitStep true k s).key = s.key) ∧
    (s.env.stopReqs.head? = some false → (waitStep true (goto p) s).pc = p ∧
      ∀ k, ∃ u, waitStep true k s = k u ∧ u.pc = s.pc ∧ u.idx = s.idx ∧ u.frame = s.frame ∧ u.key = s.key) ∧
    (waitStep true (goto p) s).idx = s.idx ∧ (waitStep true (goto p) s).frame = s.frame ∧
    (waitStep true (goto p) s).key = s.key

/-- R102: from IDLE to the end of the gap second no key event happens and KEY is kept, and the gap second is
entered only by a poll that saw second 59. -/
def Obligations.NoPulseBeforeSecond59IsSeen : Prop :=
  ∀ s t, s.pc.toNat ≤ 4 → s.env.resets = [] → step s = .next t →
    t.trace = s.trace ∧ t.key = s.key ∧ (t.pc.toNat ≤ 5 ∨ t.pc = 15) ∧ (t.pc = 5 → s.pc = 4) ∧
    (t.pc = 4 → s.pc = 3) ∧ (t.pc = 3 → s.pc = 1 ∧ t.sec = 59)

/-- R18, R36: beside reset, only BUILD and the eight encoder rows write F, and only BUILD and D_WAIT write IDX.
R36 names BUILD alone: that the encoder's rows, which BUILD is made of, are instructions of their own and so
write F beside it is the model's choice (log entry 13). -/
def Obligations.OnlyNamedRowsWriteFrameAndIndex : Prop :=
  ∀ i s t, exec i s = .next t → i ≠ .reset →
    ((∀ c, i ≠ .buildFrame c) ∧ i ≠ .fixPat ∧ (∀ d, i ≠ .dstPair d) ∧ (∀ m, i ≠ .encMin m) ∧
      (∀ h, i ≠ .encHour h) ∧ (∀ a b c d, i ≠ .encDate a b c d) ∧ (∀ g w lo p, i ≠ .lsbF g w lo p) ∧
      (∀ p c, i ≠ .par p c) ∧ i ≠ .build → ∀ a, t.frame.read a = s.frame.read a) ∧
    (i ≠ .build → i ≠ .dWait → t.idx = s.idx)

/-- R118 (the answers pinned down as in log entries 2 and 20): with no lateness and no duration, a data second that begins at a boundary holds the carrier off from
the boundary for 100,000 or 200,000 microseconds, and the wait after it ends exactly at the next boundary. -/
def Obligations.IdealSecondIsExact : Prop :=
  ∀ s b n durs lats oks, s.env.resets = [] → s.pc = 8 → s.idx.toNat < 60 →
    s.frame.read s.idx.toNat = some (symOf b) → s.env.now = n * 1000000 →
    s.env.durs = List.replicate 10 0 ++ durs → s.env.lats = 0 :: 0 :: lats → s.env.clockOks = true :: oks →
    ∃ t u, step s = .next t ∧ step t = .next u ∧
      u.trace = s.trace ++ [{ time := n * 1000000, on := false },
        { time := n * 1000000 + (if b then 200000 else 100000), on := true }] ∧
      u.env.now = (n + 1) * 1000000

/-- R100: from the gap second of a sound core whose clock can be read and that no reset touches, 121 steps make
one cycle: the core is at the gap second again, with IDX 58, after exactly 59 pulses. -/
def Obligations.OneCycleSends59Pulses : Prop :=
  ∀ s oks, Sound s → s.pc = 3 → s.env.resets = [] → s.env.clockOks = List.replicate 61 true ++ oks →
    ∃ t, Host.Core.run core 121 s = .next t ∧ t.pc = 3 ∧ t.idx = 58 ∧ t.fault = 0 ∧
      t.trace.length = s.trace.length + 2 * 59 ∧ Transmittable t.frame

/-! ### The encoder -/

/-- R67: HOUR is the raw hour plus one, plus one more with daylight saving, modulo 24; nothing else is
written. -/
def Obligations.HourIsAdjustedModulo24 : Prop :=
  ∀ s hraw dst, ∃ t, exec (.hrAdj hraw dst) s = .next t ∧ EnvKept s t ∧
    t.hour.toNat = (hraw.toNat + 1 + if dst then 1 else 0) % 24 ∧ t = { s with hour := t.hour, env := t.env }

/-- R68, R85: DOW is 7 for a raw Sunday and the raw weekday otherwise, so never 0. -/
def Obligations.WeekdayIsNeverZero : Prop :=
  ∀ s wraw, ∃ t, exec (.dowMap wraw) s = .next t ∧ EnvKept s t ∧
    t.dow = (if wraw = 0 then 7 else wraw) ∧ t.dow ≠ 0 ∧ t = { s with dow := t.dow, env := t.env }

/-- R69, R70 (that the digits are left in digU and digT is the model's form, log entry 7). -/
def Obligations.DigitsAreDecimal : Prop :=
  (∀ s v, ∃ t, exec (.bcdU v) s = .next t ∧ EnvKept s t ∧ t.digU.toNat = v.toNat % 10 ∧
    t = { s with digU := t.digU, env := t.env }) ∧
  (∀ s v w, ∃ t, exec (.bcdT v w) s = .next t ∧ EnvKept s t ∧ t.digT.toNat = v.toNat / 10 % 2 ^ w.toNat ∧
    t = { s with digT := t.digT, env := t.env })

/-- R71: LSBF puts bit k of the digit in cell lo + k for k below w, adds those bits to its accumulator, and
writes nothing else. -/
def Obligations.DigitIsPlacedLowBitFirst : Prop :=
  ∀ s g w lo p, w.toNat = 0 ∨ lo.toNat + w.toNat ≤ 60 →
    ∃ t, exec (.lsbF g w lo p) s = .next t ∧ EnvKept s t ∧
      (∀ k < w.toNat, t.frame.read (lo.toNat + k) = some (symOf (g.getLsbD k))) ∧
      (∀ a, ¬(lo.toNat ≤ a ∧ a < lo.toNat + w.toNat) → t.frame.read a = s.frame.read a) ∧
      parityOf p t = (parityOf p s ^^ xorAll ((List.range w.toNat).map g.getLsbD)) ∧
      (∀ q, q ≠ p → parityOf q t = parityOf q s) ∧
      t = { s with frame := t.frame, p1 := t.p1, p2 := t.p2, p3 := t.p3, env := t.env }

/-- R74: PAR writes its accumulator into the cell it names, and nothing else. -/
def Obligations.ParityCellIsTheAccumulator : Prop :=
  ∀ s p pi, pi.toNat < 60 →
    ∃ t, exec (.par p pi) s = .next t ∧ EnvKept s t ∧
      t.frame.read pi.toNat = some (symOf (parityOf p s)) ∧
      (∀ a, a ≠ pi.toNat → t.frame.read a = s.frame.read a) ∧
      t = { s with frame := t.frame, env := t.env }

/-- R34, R41: the encoder's cell operations are refused where they would write outside 0 to 59 (log entry
15). -/
def Obligations.CellsOutsideTheFrameAreRefused : Prop :=
  (∀ s g w lo p, 0 < w.toNat → 60 < lo.toNat + w.toNat →
    exec (.lsbF g w lo p) s = .refused (.noSuchCell (lo.toNat + w.toNat - 1))) ∧
  (∀ s p pi, 60 ≤ pi.toNat → exec (.par p pi) s = .refused (.noSuchCell pi.toNat))

/-- R72, R84: exactly one of cells 17 and 18 is ONE, 17 when daylight saving is active; nothing else is
written. -/
def Obligations.DaylightPairHasOneBitSet : Prop :=
  ∀ s dst, ∃ t, exec (.dstPair dst) s = .next t ∧ EnvKept s t ∧
    t.frame.read 17 = some (if dst then 1 else 0) ∧ t.frame.read 18 = some (if dst then 0 else 1) ∧
    (∀ a, a ≠ 17 → a ≠ 18 → t.frame.read a = s.frame.read a) ∧ t = { s with frame := t.frame, env := t.env }

/-- R73: the fixed cells, for every pattern that PREAMBLE may be, and by FIXPAT with ONE throughout (log entry
9). -/
def Obligations.FixedCellsAreWritten : Prop :=
  (∀ pre s,
    (∀ a, (fixPattern pre s).frame.read a =
      if a = 0 ∨ a = 59 then some 2 else if a = 20 then some 0
      else if (1 ≤ a ∧ a ≤ 16) ∨ a = 19 then some (pre a) else s.frame.read a) ∧
    fixPattern pre s = { s with frame := (fixPattern pre s).frame }) ∧
  (∀ s, ∃ t, exec .fixPat s = .next t ∧ EnvKept s t ∧ t = { s with frame := t.frame, env := t.env } ∧
    ∀ a, t.frame.read a =
      if a = 0 ∨ a = 59 then some 2 else if a = 20 then some 0
      else if (1 ≤ a ∧ a ≤ 16) ∨ a = 19 then some 1 else s.frame.read a)

/-- R75: minute units in 21..24 and tens in 25..27, low bit first, their exclusive-or in 28 and in P1. -/
def Obligations.MinuteGroupIsWritten : Prop :=
  ∀ s min, ∃ t, exec (.encMin min) s = .next t ∧ EnvKept s t ∧
    (∀ k < 4, t.frame.read (21 + k) = some (symOf ((min.toNat % 10).testBit k))) ∧
    (∀ k < 3, t.frame.read (25 + k) = some (symOf ((min.toNat / 10).testBit k))) ∧
    t.frame.read 28 = some (symOf (xorCells t.frame 21 7)) ∧ t.p1 = xorCells t.frame 21 7 ∧
    (∀ a, ¬(21 ≤ a ∧ a ≤ 28) → t.frame.read a = s.frame.read a) ∧
    t = { s with frame := t.frame, p1 := t.p1, env := t.env }

/-- R76: hour units in 29..32 and tens in 33..34, low bit first, their exclusive-or in 35 and in P2. -/
def Obligations.HourGroupIsWritten : Prop :=
  ∀ s hour, ∃ t, exec (.encHour hour) s = .next t ∧ EnvKept s t ∧
    (∀ k < 4, t.frame.read (29 + k) = some (symOf ((hour.toNat % 10).testBit k))) ∧
    (∀ k < 2, t.frame.read (33 + k) = some (symOf ((hour.toNat / 10).testBit k))) ∧
    t.frame.read 35 = some (symOf (xorCells t.frame 29 6)) ∧ t.p2 = xorCells t.frame 29 6 ∧
    (∀ a, ¬(29 ≤ a ∧ a ≤ 35) → t.frame.read a = s.frame.read a) ∧
    t = { s with frame := t.frame, p2 := t.p2, env := t.env }

/-- R77: day, weekday, month and year at their places, low bit first, the exclusive-or of all 22 cells in 58
and in P3. -/
def Obligations.DateGroupIsWritten : Prop :=
  ∀ s mday dow mon year2, ∃ t, exec (.encDate mday dow mon year2) s = .next t ∧ EnvKept s t ∧
    (∀ k < 4, t.frame.read (36 + k) = some (symOf ((mday.toNat % 10).testBit k))) ∧
    (∀ k < 2, t.frame.read (40 + k) = some (symOf ((mday.toNat / 10).testBit k))) ∧
    (∀ k < 3, t.frame.read (42 + k) = some (symOf (dow.toNat.testBit k))) ∧
    (∀ k < 4, t.frame.read (45 + k) = some (symOf ((mon.toNat % 10).testBit k))) ∧
    t.frame.read 49 = some (symOf ((mon.toNat / 10).testBit 0)) ∧
    (∀ k < 4, t.frame.read (50 + k) = some (symOf ((year2.toNat % 10).testBit k))) ∧
    (∀ k < 4, t.frame.read (54 + k) = some (symOf ((year2.toNat / 10).testBit k))) ∧
    t.frame.read 58 = some (symOf (xorCells t.frame 36 22)) ∧ t.p3 = xorCells t.frame 36 22 ∧
    (∀ a, ¬(36 ≤ a ∧ a ≤ 58) → t.frame.read a = s.frame.read a) ∧
    t = { s with frame := t.frame, p3 := t.p3, env := t.env }

/-- R78, R52, R60: BUILDFRAME writes all 60 cells with the frame pattern of its operands, NONE at 0 and 59
only and the reserved code nowhere, and HOUR, DOW and the accumulators (the fixed cells: log entry 9). -/
def Obligations.BuildframeWritesThePattern : Prop :=
  ∀ s c, ∃ t, exec (.buildFrame c) s = .next t ∧ EnvKept s t ∧
    (∀ i < 60, t.frame.read i = (frameCells (fun _ => 1) c)[i]?) ∧
    (∀ i < 60, t.frame.read i ≠ some 3 ∧ (t.frame.read i = some 2 ↔ i = 0 ∨ i = 59)) ∧
    t = { s with
      frame := t.frame, hour := t.hour, dow := t.dow, p1 := t.p1, p2 := t.p2, p3 := t.p3, env := t.env }

/-- R82, R56: for every PREAMBLE, the three parity cells are the exclusive-or of their ranges, and flipping one
covered cell flips the exclusive-or that a recomputed parity cell would hold. -/
def Obligations.ParityCellsCoverTheirRanges : Prop :=
  (∀ pre c s f, f = (assembleFrame pre c s).frame →
    bitAt f 28 = xorCells f 21 7 ∧ bitAt f 35 = xorCells f 29 6 ∧ bitAt f 58 = xorCells f 36 22) ∧
  (∀ (f : Frame) lo n i, lo ≤ i → i < lo + n →
    xorCells (f.write i (symOf !(bitAt f i))) lo n = !(xorCells f lo n))

/-- R83: reading the fields of a built frame back, low bit first, gives the operands; the hour that comes
back is the adjusted one. -/
def Obligations.FieldsReadBackAsEncoded : Prop :=
  ∀ pre c s f, c.inRange = true → f = (assembleFrame pre c s).frame →
    valAt f 21 4 + 10 * valAt f 25 3 = c.min.toNat ∧
    valAt f 29 4 + 10 * valAt f 33 2 = (c.hraw.toNat + 1 + if c.dst then 1 else 0) % 24 ∧
    valAt f 36 4 + 10 * valAt f 40 2 = c.mday.toNat ∧
    valAt f 42 3 = (if c.wraw = 0 then 7 else c.wraw.toNat) ∧
    valAt f 45 4 + 10 * valAt f 49 1 = c.mon.toNat ∧
    valAt f 50 4 + 10 * valAt f 54 4 = c.year2.toNat

/-- R81: the hour's wrap carries into no other field: the cells from 36 on depend on day, weekday, month and
year alone. -/
def Obligations.HourWrapDoesNotCarry : Prop :=
  ∀ c c' : CalFields, ∀ s s' t t' : State, c.mday = c'.mday → c.wraw = c'.wraw → c.mon = c'.mon →
    c.year2 = c'.year2 → exec (.buildFrame c) s = .next t → exec (.buildFrame c') s' = .next t' →
    ∀ i, 36 ≤ i → i < 60 → t.frame.read i = t'.frame.read i

/-- R79, R45: the frame is a function of the operands: two machines that differ in everything else build
equal frames, cell by cell. -/
def Obligations.EqualOperandsGiveEqualFrames : Prop :=
  ∀ c s s' t t', exec (.buildFrame c) s = .next t → exec (.buildFrame c) s' = .next t' →
    (∀ i < 60, t.frame.read i = t'.frame.read i) ∧ t.hour = t'.hour ∧ t.dow = t'.dow ∧
    (s.frame.wf = true → s'.frame.wf = true → ∀ i, t.frame.read i = t'.frame.read i)

/-! ### Primitives and faults -/

/-- R106: ClockRead latches S and US from the clock at one moment of the step, or raises ClockReadFailure. -/
def Obligations.ClockReadLatchesOneInstant : Prop :=
  ∀ s, ∃ t, exec .clockRead s = .next t ∧ EnvKept s t ∧
    if s.env.nextClockOk then
      ∃ w, s.env.now ≤ w ∧ w ≤ t.env.now ∧
        t = { s with secs := w / 1000000, us := BitVec.ofNat 20 (w % 1000000), env := t.env } ∧
        t.us.toNat < 1000000
    else Raised .clockReadFailure s t

/-- R107: Calendar completes for every seconds count n and either register: CAL takes the time source's answer for
n, or SEC its second; the answer is in the ranges of R15 (a second of 60 is admitted, R156); nothing else is
written; and no instruction changes the time source, so the answer for n is the same all run (log entry 3). -/
def Obligations.CalendarAnswersInRange : Prop :=
  (∀ s n, ∃ t, exec (.calendar .fields n) s = .next t ∧ EnvKept s t ∧ t.cal = calOf (s.env.calendarAt n) ∧
    t.cal.toCalFields.inRange = true ∧ t.cal.sec.toNat ≤ 60 ∧ t = { s with cal := t.cal, env := t.env }) ∧
  (∀ s n, ∃ t, exec (.calendar .second n) s = .next t ∧ EnvKept s t ∧
    t.sec = (calOf (s.env.calendarAt n)).sec ∧ t.sec.toNat ≤ 60 ∧ t = { s with sec := t.sec, env := t.env }) ∧
  (∀ s t n i, exec i s = .next t → t.env.calendarAt n = s.env.calendarAt n)

/-- R108: a sleep never ends early; TMR is 0 at its end (log entry 19) and nothing else is written. -/
def Obligations.SleepNeverEndsEarly : Prop :=
  ∀ s d, ∃ t lat, exec (.sleep d) s = .next t ∧ EnvKept s t ∧
    t.env.now = s.env.now + d.toNat + lat ∧ t = { s with tmr := 0, env := t.env }

/-- R109, R110: KeyOff writes 0 and KeyOn writes 1 to KEY and append their event with the current W; nothing
else is written. -/
def Obligations.KeyCallsSwitchTheCarrier : Prop :=
  ∀ i on s, (i, on) ∈ [(Instr.keyOff, false), (.keyOn, true)] →
    ∃ t w, exec i s = .next t ∧ EnvKept s t ∧ s.env.now ≤ w ∧ w ≤ t.env.now ∧
      t = { s with key := on, trace := s.trace ++ [{ time := w, on := on }], env := t.env }

/-- R116: WAITB latches the clock and ends 1,000,000 - US microseconds after the read or later, so never before the
next second boundary; a failed read raises and makes no sleep. How long it sleeps, WaitsSleepToTheBoundary
says. -/
def Obligations.WaitEndsNotBeforeTheBoundary : Prop :=
  ∀ s, ∃ t, exec .waitB s = .next t ∧ EnvKept s t ∧
    if s.env.nextClockOk then
      ∃ w, s.env.now ≤ w ∧ w + (1000000 - w % 1000000) ≤ t.env.now ∧
        t = { s with secs := w / 1000000, us := BitVec.ofNat 20 (w % 1000000), tmr := 0, env := t.env }
    else Raised .clockReadFailure s t

/-- R117: Status has no effect on any register; the line is recorded for an observer (log entry 18). -/
def Obligations.StatusHasNoEffectOnState : Prop :=
  ∀ s what, ∃ t u, exec (.status what) s = .next t ∧ EnvKept s t ∧ s.env.now ≤ u ∧ u ≤ t.env.now ∧
    t = { s with status := s.status ++ [{ time := u, what := what }], env := t.env }

/-- R121, R122: raise records the code of its fault if none is recorded, goes to HALT and writes nothing
else. That the old PC is then lost is log entry 26. That raise can record codes 1 and 2, and then goes to HALT
too, is the model's choice (log entry 27): R125 and R126 say that the core never writes them. -/
def Obligations.RaiseKeepsTheFirstFault : Prop :=
  ∀ s x, ∃ t, exec (.raise x) s = .next t ∧ EnvKept s t ∧
    t = { s with
      pc := 15
      fault := if s.fault = 0 then (match x with
        | .hardwareUnavailable => 1
        | .invalidCarrierConfiguration => 2
        | .clockReadFailure => 3
        | .illegalSymbol => 4) else s.fault
      env := t.env }

/-- R23: no instruction but reset clears or changes a recorded fault. -/
def Obligations.RecordedFaultIsKept : Prop :=
  ∀ i s t, i ≠ .reset → s.fault ≠ 0 → exec i s = .next t → t.fault = s.fault

/-- R125, R126, R121: the sequencer, the symbols and the primitives never write codes 1, 2 or 5 to 7: FAULT
becomes 3 or 4 or stays as it is, unless raise or reset is executed as an instruction. -/
def Obligations.SequencerRaisesOnlyItsTwoFaults : Prop :=
  ∀ i s t, (∀ x, i ≠ .raise x) → i ≠ .reset → exec i s = .next t →
    t.fault = s.fault ∨ (s.fault = 0 ∧ t.pc = 15 ∧ (t.fault = 3 ∨ t.fault = 4))

/-! ### Exact times -/

/-- R116: where the clock read succeeds, with the durations a, b, c and the lateness l named, WAITB reads the clock
a after its start and sleeps exactly 1,000,000 - US and the lateness; so do the four wait states, which then take
the duration c of their end. That a read acts between two durations is the model's form (log entry 20). -/
def Obligations.WaitsSleepToTheBoundary : Prop :=
  ∀ s a b c l durs lats w, s.env.nextClockOk = true → s.env.durs = a :: b :: c :: durs →
    s.env.lats = l :: lats → w = s.env.now + a →
    (∃ t, exec .waitB s = .next t ∧ t.us.toNat = w % 1000000 ∧
      t.env.now = w + b + (1000000 - w % 1000000) + l) ∧
    ∀ i ∈ [Instr.acqWait, .s59Wait, .s0Wait, .dWait], ∃ t, exec i s = .next t ∧ t.us.toNat = w % 1000000 ∧
      t.env.now = w + b + (1000000 - w % 1000000) + l + c

/-- R93, R118, R119: with the durations and the lateness named, the carrier of second 0 goes off after the status
line and the first duration of KeyOff, and is off for 200,000 microseconds, the lateness and the durations around
the sleep: F plays no part. The places of the durations are the model's form (log entry 20). -/
def Obligations.StartSecondIsExact : Prop :=
  ∀ s a b c d e f g l durs lats off, s.env.durs = a :: b :: c :: d :: e :: f :: g :: durs →
    s.env.lats = l :: lats → off = s.env.now + a + b + c →
    ∃ t, exec .s0Emit s = .next t ∧
      t.trace = s.trace ++ [{ time := off, on := false }, { time := off + d + 200000 + l + e, on := true }] ∧
      t.env.now = off + d + 200000 + l + e + f + g

/-! ### The launch premise on the time source -/

/-- R155, R103, R89, R95: no step changes whether the time source is consistent; where it is, a poll that leaves
acquisition has the sequence on the minute, the second of minute k beginning k + 1 counts after its own for every
k below 60; and the frame BUILD writes names the minute that follows that of its clock read. That 'the minute
that follows' is the minute field plus one modulo 60 is log entry 3's reading. -/
def Obligations.ConsistentTimeSourcePutsTheFrameOnTheMinute : Prop :=
  (∀ s t n, step s = .next t → t.env.consistentAt n = s.env.consistentAt n) ∧
  (∀ s t, exec .acqPoll s = .next t → t.pc = 3 → s.env.ConsistentOn t.secs 60 →
    ∀ k < 60, (s.env.calendarAt (t.secs + (k + 1))).sec.val = k) ∧
  (∀ s, s.env.nextClockOk = true → ∃ t w, exec .build s = .next t ∧ s.env.now ≤ w ∧ w ≤ t.env.now ∧
    (s.env.consistentAt (w / 1000000) = true →
      valAt t.frame 21 4 + 10 * valAt t.frame 25 3 = ((s.env.calendarAt (w / 1000000)).min.val + 1) % 60))
end

