-- ==== Sys2Proof/Laws/Digits.lean ====
section
/-!
SUPPORT. Bits and digits: a number's low bits read back, and what the parity of a group is.
-/
namespace Sys2Proof

@[simp] theorem digitBits_length (w v : Nat) : (digitBits w v).length = w := by
  induction w generalizing v with
  | zero => rfl
  | succ w ih => simp [digitBits, ih]

/-- Reading the low bits of a number gives it modulo 2^w (R53, R83). -/
theorem valueOf_digitBits (w v : Nat) : valueOf (digitBits w v) = v % 2 ^ w := by
  induction w generalizing v with
  | zero => simp [digitBits, valueOf, Nat.mod_one]
  | succ w ih =>
    simp only [digitBits, valueOf, ih, Nat.pow_succ']
    rw [Nat.mod_mul]
    rcases Nat.mod_two_eq_zero_or_one v with h | h <;> simp [h]

theorem digitBits_mod (w v : Nat) : digitBits w (v % 2 ^ w) = digitBits w v := by
  induction w generalizing v with
  | zero => rfl
  | succ w ih =>
    simp only [digitBits]
    have h1 : v % 2 ^ (w + 1) % 2 = v % 2 := Nat.mod_mod_of_dvd v (by simp [Nat.pow_succ])
    have h2 : v % 2 ^ (w + 1) / 2 = v / 2 % 2 ^ w := by
      rw [Nat.pow_succ', Nat.mod_mul_right_div_self]
    rw [h1, h2, ih]

/-- Bit `k` of a digit stands at place `k` (R53). -/
theorem digitBits_getElem? (w v k : Nat) :
    (digitBits w v)[k]? = if k < w then some (v.testBit k) else none := by
  induction w generalizing v k with
  | zero => simp [digitBits]
  | succ w ih =>
    cases k with
    | zero => simp [digitBits, Nat.testBit_zero, Bool.beq_eq_decide_eq]
    | succ k => simp [digitBits, ih, Nat.testBit_succ]

@[simp] theorem digitBits_getElem (w v k : Nat) (h : k < (digitBits w v).length) :
    (digitBits w v)[k] = v.testBit k := by
  have hk : k < w := by simpa using h
  have := digitBits_getElem? w v k
  rw [List.getElem?_eq_getElem h] at this
  simpa [hk] using this

theorem xorAll_append (xs ys : List Bool) : xorAll (xs ++ ys) = (xorAll xs ^^ xorAll ys) := by
  induction xs with
  | nil => simp [xorAll]
  | cons x xs ih => simp [xorAll, ih]

/-- With the parity cell included, the exclusive-or of a group is 0 (R56). -/
theorem xorAll_with_parity (bits : List Bool) : xorAll (bits ++ [xorAll bits]) = false := by
  simp [xorAll_append, xorAll]

@[simp] theorem bitOf_symOf (b : Bool) : bitOf (symOf b) = some b := by cases b <;> rfl

@[simp] theorem bitsOf_map_symOf (bits : List Bool) : bitsOf (bits.map symOf) = some bits := by
  induction bits with
  | nil => rfl
  | cons b bs ih => simp [bitsOf, ih]

@[simp] theorem writtenCells_map_some (cs : List Symbol) : writtenCells (cs.map some) = some cs := by
  induction cs with
  | nil => rfl
  | cons c cs ih => simp [writtenCells, ih]

@[simp] theorem symOf_ne_reserved (b : Bool) : symOf b ≠ Config.symReserved := by cases b <;> decide

@[simp] theorem symOf_ne_none (b : Bool) : symOf b ≠ Config.symNone := by cases b <;> decide

@[simp] theorem symOf_eq_one (b : Bool) : (symOf b = Config.symOne) ↔ b = true := by
  cases b <;> decide

@[simp] theorem twoDigits_length (w v : Nat) : (twoDigits w v).length = w + 4 := by
  simp [twoDigits, Nat.add_comm]

@[simp] theorem groupCells_length (bits : List Bool) : (groupCells bits).length = bits.length + 1 := by
  simp [groupCells]

@[simp] theorem minuteCells_length (min : Nat) : (minuteCells min).length = 8 := by simp [minuteCells]

@[simp] theorem hourCells_length (hour : Nat) : (hourCells hour).length = 7 := by simp [hourCells]

@[simp] theorem dateCells_length (mday dow mon year2 : Nat) :
    (dateCells mday dow mon year2).length = 23 := by simp [dateCells]

@[simp] theorem preambleCells_length (pre : Nat → Symbol) : (preambleCells pre).length = 16 := by
  simp [preambleCells]

@[simp] theorem dstCells_length (dst : Bool) : (dstCells dst).length = 2 := rfl

@[simp] theorem frameCells_length (pre : Nat → Symbol) (c : CalFields) :
    (frameCells pre c).length = Config.nSym := by simp [frameCells]

end Sys2Proof
end

