-- ==== Sys2Proof/Laws/Frame.lean ====
section
/-!
SUPPORT. The memory laws of the frame register: a read after a write, that a write keeps the canonical
form, and the same for a run of cells.
-/
namespace Sys2Proof.Machine

theorem Frame.read_write (f : Frame) (i j : Nat) (v : Symbol) :
    (f.write i v).read j = if j = i then some v else f.read j := by
  induction f with
  | nil => simp [Frame.write, Frame.read]
  | cons c r ih =>
    obtain ⟨k, w⟩ := c
    simp only [Frame.write]
    split
    · simp only [Frame.read]
    · split
      · subst_vars
        simp only [Frame.read]
        split <;> simp_all
      · simp only [Frame.read, ih]
        split <;> split <;> simp_all

@[simp] theorem Frame.read_write_self (f : Frame) (i : Nat) (v : Symbol) :
    (f.write i v).read i = some v := by simp [Frame.read_write]

theorem Frame.read_write_of_ne (f : Frame) {i j : Nat} (v : Symbol) (h : j ≠ i) :
    (f.write i v).read j = f.read j := by simp [Frame.read_write, h]

theorem Frame.wfFrom_mono {f : Frame} {lo lo' : Nat} (hle : lo' ≤ lo) (h : f.wfFrom lo = true) :
    f.wfFrom lo' = true := by
  cases f with
  | nil => rfl
  | cons c r =>
    obtain ⟨k, w⟩ := c
    simp only [Frame.wfFrom, Bool.and_eq_true, decide_eq_true_eq] at h ⊢
    exact ⟨⟨by omega, h.1.2⟩, h.2⟩

theorem Frame.wfFrom_write {f : Frame} {lo i : Nat} (v : Symbol) (hlo : lo ≤ i) (hi : i < Config.nSym)
    (h : f.wfFrom lo = true) : (f.write i v).wfFrom lo = true := by
  induction f generalizing lo with
  | nil => simp_all [Frame.write, Frame.wfFrom]
  | cons c r ih =>
    obtain ⟨k, w⟩ := c
    simp only [Frame.wfFrom, Bool.and_eq_true, decide_eq_true_eq] at h
    simp only [Frame.write]
    split
    · simp only [Frame.wfFrom, Bool.and_eq_true, decide_eq_true_eq]
      exact ⟨⟨hlo, hi⟩, ⟨by omega, h.1.2⟩, h.2⟩
    · split
      · subst_vars
        simp only [Frame.wfFrom, Bool.and_eq_true, decide_eq_true_eq]
        exact ⟨⟨hlo, hi⟩, h.2⟩
      · simp only [Frame.wfFrom, Bool.and_eq_true, decide_eq_true_eq]
        exact ⟨h.1, ih (by omega) h.2⟩

/-- A write to an existing cell keeps the canonical form. -/
theorem Frame.wf_write {f : Frame} {i : Nat} (v : Symbol) (hi : i < Config.nSym) (h : f.wf = true) :
    (f.write i v).wf = true := Frame.wfFrom_write v (Nat.zero_le i) hi h

theorem Frame.read_eq_none_of_lt {f : Frame} {lo i : Nat} (h : f.wfFrom lo = true) (hi : i < lo) :
    f.read i = none := by
  induction f generalizing lo with
  | nil => rfl
  | cons c r ih =>
    obtain ⟨k, w⟩ := c
    simp only [Frame.wfFrom, Bool.and_eq_true, decide_eq_true_eq] at h
    simp only [Frame.read, ih h.2 (by omega)]
    split
    · omega
    · rfl

/-- In canonical form no cell outside the address space is listed. -/
theorem Frame.read_eq_none_of_wf {f : Frame} {i : Nat} (h : f.wf = true) (hi : Config.nSym ≤ i) :
    f.read i = none := by
  suffices ∀ lo, f.wfFrom lo = true → f.read i = none from this 0 h
  intro lo h
  clear * - h hi
  induction f generalizing lo with
  | nil => rfl
  | cons c r ih =>
    obtain ⟨k, w⟩ := c
    simp only [Frame.wfFrom, Bool.and_eq_true, decide_eq_true_eq] at h
    simp only [Frame.read, ih _ h.2]
    split
    · omega
    · rfl

theorem Frame.writeList_append (f : Frame) (i : Nat) (xs ys : List Symbol) :
    f.writeList i (xs ++ ys) = (f.writeList i xs).writeList (i + xs.length) ys := by
  induction xs generalizing f i with
  | nil => rfl
  | cons x xs ih =>
    simp only [List.cons_append, Frame.writeList, ih, List.length_cons]
    rw [Nat.add_assoc, Nat.add_comm 1]

/-- A run of cells reads back, and every other cell is as before. -/
theorem Frame.read_writeList (f : Frame) (i j : Nat) (vs : List Symbol) :
    (f.writeList i vs).read j = if i ≤ j ∧ j < i + vs.length then vs[j - i]? else f.read j := by
  induction vs generalizing f i with
  | nil =>
    simp [Frame.writeList]
  | cons v vs ih =>
    rw [Frame.writeList, ih, Frame.read_write]
    by_cases hj : j = i
    · subst hj; simp
    · by_cases hlt : i + 1 ≤ j ∧ j < i + 1 + vs.length
      · have hc : i ≤ j ∧ j < i + (v :: vs).length := by simp; omega
        rw [if_pos hlt, if_pos hc]
        obtain ⟨k, rfl⟩ : ∃ k, j = i + (k + 1) := ⟨j - i - 1, by omega⟩
        have h1 : i + (k + 1) - (i + 1) = k := by omega
        have h2 : i + (k + 1) - i = k + 1 := by omega
        rw [h1, h2, List.getElem?_cons_succ]
      · have hc : ¬(i ≤ j ∧ j < i + (v :: vs).length) := by simp; omega
        rw [if_neg hlt, if_neg hc, if_neg hj]

theorem Frame.wf_writeList {f : Frame} {i : Nat} {vs : List Symbol} (hi : i + vs.length ≤ Config.nSym)
    (h : f.wf = true) : (f.writeList i vs).wf = true := by
  induction vs generalizing f i with
  | nil => exact h
  | cons v vs ih =>
    simp only [List.length_cons] at hi
    exact ih (by omega) (Frame.wf_write v (by omega) h)

end Sys2Proof.Machine
end

