-- ==== Sys2Proof/Laws/State.lean ====
section
/-!
SUPPORT. What each named update of the state leaves in each field: one lemma per field and update, so that
no later proof unfolds a record update.
-/
namespace Sys2Proof.Machine

variable (s : State)

/-! ### elapse -/

@[simp] theorem elapse_frame : (elapse s).frame = s.frame := rfl
@[simp] theorem elapse_pc : (elapse s).pc = s.pc := rfl
@[simp] theorem elapse_idx : (elapse s).idx = s.idx := rfl
@[simp] theorem elapse_key : (elapse s).key = s.key := rfl
@[simp] theorem elapse_tmr : (elapse s).tmr = s.tmr := rfl
@[simp] theorem elapse_fault : (elapse s).fault = s.fault := rfl
@[simp] theorem elapse_cal : (elapse s).cal = s.cal := rfl
@[simp] theorem elapse_hour : (elapse s).hour = s.hour := rfl
@[simp] theorem elapse_dow : (elapse s).dow = s.dow := rfl
@[simp] theorem elapse_p1 : (elapse s).p1 = s.p1 := rfl
@[simp] theorem elapse_p2 : (elapse s).p2 = s.p2 := rfl
@[simp] theorem elapse_p3 : (elapse s).p3 = s.p3 := rfl
@[simp] theorem elapse_secs : (elapse s).secs = s.secs := rfl
@[simp] theorem elapse_us : (elapse s).us = s.us := rfl
@[simp] theorem elapse_sec : (elapse s).sec = s.sec := rfl
@[simp] theorem elapse_digU : (elapse s).digU = s.digU := rfl
@[simp] theorem elapse_digT : (elapse s).digT = s.digT := rfl
@[simp] theorem elapse_trace : (elapse s).trace = s.trace := rfl
@[simp] theorem elapse_status : (elapse s).status = s.status := rfl
@[simp] theorem elapse_env_now : (elapse s).env.now = s.env.now + s.env.nextDur := rfl
@[simp] theorem elapse_env_durs : (elapse s).env.durs = s.env.durs.tail := rfl
@[simp] theorem elapse_env_lats : (elapse s).env.lats = s.env.lats := rfl
@[simp] theorem elapse_env_clockOks : (elapse s).env.clockOks = s.env.clockOks := rfl
@[simp] theorem elapse_env_starts : (elapse s).env.starts = s.env.starts := rfl
@[simp] theorem elapse_env_stopReqs : (elapse s).env.stopReqs = s.env.stopReqs := rfl
@[simp] theorem elapse_env_resets : (elapse s).env.resets = s.env.resets := rfl
@[simp] theorem elapse_env_calendar : (elapse s).env.calendar = s.env.calendar := rfl
@[simp] theorem elapse_env_tick : (elapse s).env.tick = s.env.tick + 1 := rfl

/-! ### takeClockOk -/

@[simp] theorem takeClockOk_frame : (takeClockOk s).frame = s.frame := rfl
@[simp] theorem takeClockOk_pc : (takeClockOk s).pc = s.pc := rfl
@[simp] theorem takeClockOk_idx : (takeClockOk s).idx = s.idx := rfl
@[simp] theorem takeClockOk_key : (takeClockOk s).key = s.key := rfl
@[simp] theorem takeClockOk_tmr : (takeClockOk s).tmr = s.tmr := rfl
@[simp] theorem takeClockOk_fault : (takeClockOk s).fault = s.fault := rfl
@[simp] theorem takeClockOk_cal : (takeClockOk s).cal = s.cal := rfl
@[simp] theorem takeClockOk_hour : (takeClockOk s).hour = s.hour := rfl
@[simp] theorem takeClockOk_dow : (takeClockOk s).dow = s.dow := rfl
@[simp] theorem takeClockOk_p1 : (takeClockOk s).p1 = s.p1 := rfl
@[simp] theorem takeClockOk_p2 : (takeClockOk s).p2 = s.p2 := rfl
@[simp] theorem takeClockOk_p3 : (takeClockOk s).p3 = s.p3 := rfl
@[simp] theorem takeClockOk_secs : (takeClockOk s).secs = s.secs := rfl
@[simp] theorem takeClockOk_us : (takeClockOk s).us = s.us := rfl
@[simp] theorem takeClockOk_sec : (takeClockOk s).sec = s.sec := rfl
@[simp] theorem takeClockOk_digU : (takeClockOk s).digU = s.digU := rfl
@[simp] theorem takeClockOk_digT : (takeClockOk s).digT = s.digT := rfl
@[simp] theorem takeClockOk_trace : (takeClockOk s).trace = s.trace := rfl
@[simp] theorem takeClockOk_status : (takeClockOk s).status = s.status := rfl
@[simp] theorem takeClockOk_env_now : (takeClockOk s).env.now = s.env.now := rfl
@[simp] theorem takeClockOk_env_durs : (takeClockOk s).env.durs = s.env.durs := rfl
@[simp] theorem takeClockOk_env_lats : (takeClockOk s).env.lats = s.env.lats := rfl
@[simp] theorem takeClockOk_env_clockOks : (takeClockOk s).env.clockOks = s.env.clockOks.tail := rfl
@[simp] theorem takeClockOk_env_starts : (takeClockOk s).env.starts = s.env.starts := rfl
@[simp] theorem takeClockOk_env_stopReqs : (takeClockOk s).env.stopReqs = s.env.stopReqs := rfl
@[simp] theorem takeClockOk_env_resets : (takeClockOk s).env.resets = s.env.resets := rfl
@[simp] theorem takeClockOk_env_calendar : (takeClockOk s).env.calendar = s.env.calendar := rfl
@[simp] theorem takeClockOk_env_tick : (takeClockOk s).env.tick = s.env.tick + 1 := rfl

/-! ### takeStart -/

@[simp] theorem takeStart_frame : (takeStart s).frame = s.frame := rfl
@[simp] theorem takeStart_pc : (takeStart s).pc = s.pc := rfl
@[simp] theorem takeStart_idx : (takeStart s).idx = s.idx := rfl
@[simp] theorem takeStart_key : (takeStart s).key = s.key := rfl
@[simp] theorem takeStart_tmr : (takeStart s).tmr = s.tmr := rfl
@[simp] theorem takeStart_fault : (takeStart s).fault = s.fault := rfl
@[simp] theorem takeStart_cal : (takeStart s).cal = s.cal := rfl
@[simp] theorem takeStart_hour : (takeStart s).hour = s.hour := rfl
@[simp] theorem takeStart_dow : (takeStart s).dow = s.dow := rfl
@[simp] theorem takeStart_p1 : (takeStart s).p1 = s.p1 := rfl
@[simp] theorem takeStart_p2 : (takeStart s).p2 = s.p2 := rfl
@[simp] theorem takeStart_p3 : (takeStart s).p3 = s.p3 := rfl
@[simp] theorem takeStart_secs : (takeStart s).secs = s.secs := rfl
@[simp] theorem takeStart_us : (takeStart s).us = s.us := rfl
@[simp] theorem takeStart_sec : (takeStart s).sec = s.sec := rfl
@[simp] theorem takeStart_digU : (takeStart s).digU = s.digU := rfl
@[simp] theorem takeStart_digT : (takeStart s).digT = s.digT := rfl
@[simp] theorem takeStart_trace : (takeStart s).trace = s.trace := rfl
@[simp] theorem takeStart_status : (takeStart s).status = s.status := rfl
@[simp] theorem takeStart_env_now : (takeStart s).env.now = s.env.now := rfl
@[simp] theorem takeStart_env_durs : (takeStart s).env.durs = s.env.durs := rfl
@[simp] theorem takeStart_env_lats : (takeStart s).env.lats = s.env.lats := rfl
@[simp] theorem takeStart_env_clockOks : (takeStart s).env.clockOks = s.env.clockOks := rfl
@[simp] theorem takeStart_env_starts : (takeStart s).env.starts = s.env.starts.tail := rfl
@[simp] theorem takeStart_env_stopReqs : (takeStart s).env.stopReqs = s.env.stopReqs := rfl
@[simp] theorem takeStart_env_resets : (takeStart s).env.resets = s.env.resets := rfl
@[simp] theorem takeStart_env_calendar : (takeStart s).env.calendar = s.env.calendar := rfl
@[simp] theorem takeStart_env_tick : (takeStart s).env.tick = s.env.tick + 1 := rfl

/-! ### takeStop -/

@[simp] theorem takeStop_frame : (takeStop s).frame = s.frame := rfl
@[simp] theorem takeStop_pc : (takeStop s).pc = s.pc := rfl
@[simp] theorem takeStop_idx : (takeStop s).idx = s.idx := rfl
@[simp] theorem takeStop_key : (takeStop s).key = s.key := rfl
@[simp] theorem takeStop_tmr : (takeStop s).tmr = s.tmr := rfl
@[simp] theorem takeStop_fault : (takeStop s).fault = s.fault := rfl
@[simp] theorem takeStop_cal : (takeStop s).cal = s.cal := rfl
@[simp] theorem takeStop_hour : (takeStop s).hour = s.hour := rfl
@[simp] theorem takeStop_dow : (takeStop s).dow = s.dow := rfl
@[simp] theorem takeStop_p1 : (takeStop s).p1 = s.p1 := rfl
@[simp] theorem takeStop_p2 : (takeStop s).p2 = s.p2 := rfl
@[simp] theorem takeStop_p3 : (takeStop s).p3 = s.p3 := rfl
@[simp] theorem takeStop_secs : (takeStop s).secs = s.secs := rfl
@[simp] theorem takeStop_us : (takeStop s).us = s.us := rfl
@[simp] theorem takeStop_sec : (takeStop s).sec = s.sec := rfl
@[simp] theorem takeStop_digU : (takeStop s).digU = s.digU := rfl
@[simp] theorem takeStop_digT : (takeStop s).digT = s.digT := rfl
@[simp] theorem takeStop_trace : (takeStop s).trace = s.trace := rfl
@[simp] theorem takeStop_status : (takeStop s).status = s.status := rfl
@[simp] theorem takeStop_env_now : (takeStop s).env.now = s.env.now := rfl
@[simp] theorem takeStop_env_durs : (takeStop s).env.durs = s.env.durs := rfl
@[simp] theorem takeStop_env_lats : (takeStop s).env.lats = s.env.lats := rfl
@[simp] theorem takeStop_env_clockOks : (takeStop s).env.clockOks = s.env.clockOks := rfl
@[simp] theorem takeStop_env_starts : (takeStop s).env.starts = s.env.starts := rfl
@[simp] theorem takeStop_env_stopReqs : (takeStop s).env.stopReqs = s.env.stopReqs.tail := rfl
@[simp] theorem takeStop_env_resets : (takeStop s).env.resets = s.env.resets := rfl
@[simp] theorem takeStop_env_calendar : (takeStop s).env.calendar = s.env.calendar := rfl
@[simp] theorem takeStop_env_tick : (takeStop s).env.tick = s.env.tick + 1 := rfl

/-! ### raiseFault -/

@[simp] theorem raiseFault_frame (x : CoreFault) : (raiseFault x s).frame = s.frame := rfl
@[simp] theorem raiseFault_pc (x : CoreFault) : (raiseFault x s).pc = Config.pcHalt := rfl
@[simp] theorem raiseFault_idx (x : CoreFault) : (raiseFault x s).idx = s.idx := rfl
@[simp] theorem raiseFault_key (x : CoreFault) : (raiseFault x s).key = s.key := rfl
@[simp] theorem raiseFault_tmr (x : CoreFault) : (raiseFault x s).tmr = s.tmr := rfl
@[simp] theorem raiseFault_fault (x : CoreFault) :
    (raiseFault x s).fault = if s.fault = 0 then faultCode x else s.fault := rfl
@[simp] theorem raiseFault_cal (x : CoreFault) : (raiseFault x s).cal = s.cal := rfl
@[simp] theorem raiseFault_hour (x : CoreFault) : (raiseFault x s).hour = s.hour := rfl
@[simp] theorem raiseFault_dow (x : CoreFault) : (raiseFault x s).dow = s.dow := rfl
@[simp] theorem raiseFault_p1 (x : CoreFault) : (raiseFault x s).p1 = s.p1 := rfl
@[simp] theorem raiseFault_p2 (x : CoreFault) : (raiseFault x s).p2 = s.p2 := rfl
@[simp] theorem raiseFault_p3 (x : CoreFault) : (raiseFault x s).p3 = s.p3 := rfl
@[simp] theorem raiseFault_secs (x : CoreFault) : (raiseFault x s).secs = s.secs := rfl
@[simp] theorem raiseFault_us (x : CoreFault) : (raiseFault x s).us = s.us := rfl
@[simp] theorem raiseFault_sec (x : CoreFault) : (raiseFault x s).sec = s.sec := rfl
@[simp] theorem raiseFault_digU (x : CoreFault) : (raiseFault x s).digU = s.digU := rfl
@[simp] theorem raiseFault_digT (x : CoreFault) : (raiseFault x s).digT = s.digT := rfl
@[simp] theorem raiseFault_trace (x : CoreFault) : (raiseFault x s).trace = s.trace := rfl
@[simp] theorem raiseFault_status (x : CoreFault) : (raiseFault x s).status = s.status := rfl
@[simp] theorem raiseFault_env (x : CoreFault) : (raiseFault x s).env = s.env := rfl

/-! ### latchClock -/

@[simp] theorem latchClock_frame : (latchClock s).frame = s.frame := rfl
@[simp] theorem latchClock_pc : (latchClock s).pc = s.pc := rfl
@[simp] theorem latchClock_idx : (latchClock s).idx = s.idx := rfl
@[simp] theorem latchClock_key : (latchClock s).key = s.key := rfl
@[simp] theorem latchClock_tmr : (latchClock s).tmr = s.tmr := rfl
@[simp] theorem latchClock_fault : (latchClock s).fault = s.fault := rfl
@[simp] theorem latchClock_cal : (latchClock s).cal = s.cal := rfl
@[simp] theorem latchClock_hour : (latchClock s).hour = s.hour := rfl
@[simp] theorem latchClock_dow : (latchClock s).dow = s.dow := rfl
@[simp] theorem latchClock_p1 : (latchClock s).p1 = s.p1 := rfl
@[simp] theorem latchClock_p2 : (latchClock s).p2 = s.p2 := rfl
@[simp] theorem latchClock_p3 : (latchClock s).p3 = s.p3 := rfl
@[simp] theorem latchClock_secs : (latchClock s).secs = s.env.now / Config.secUs := rfl
@[simp] theorem latchClock_us : (latchClock s).us = .ofNat 20 (s.env.now % Config.secUs) := rfl
@[simp] theorem latchClock_sec : (latchClock s).sec = s.sec := rfl
@[simp] theorem latchClock_digU : (latchClock s).digU = s.digU := rfl
@[simp] theorem latchClock_digT : (latchClock s).digT = s.digT := rfl
@[simp] theorem latchClock_trace : (latchClock s).trace = s.trace := rfl
@[simp] theorem latchClock_status : (latchClock s).status = s.status := rfl
@[simp] theorem latchClock_env : (latchClock s).env = s.env := rfl

/-! ### sleepFor -/

@[simp] theorem sleepFor_frame (d : BitVec 20) : (sleepFor d s).frame = s.frame := rfl
@[simp] theorem sleepFor_pc (d : BitVec 20) : (sleepFor d s).pc = s.pc := rfl
@[simp] theorem sleepFor_idx (d : BitVec 20) : (sleepFor d s).idx = s.idx := rfl
@[simp] theorem sleepFor_key (d : BitVec 20) : (sleepFor d s).key = s.key := rfl
@[simp] theorem sleepFor_tmr (d : BitVec 20) : (sleepFor d s).tmr = 0 := rfl
@[simp] theorem sleepFor_fault (d : BitVec 20) : (sleepFor d s).fault = s.fault := rfl
@[simp] theorem sleepFor_cal (d : BitVec 20) : (sleepFor d s).cal = s.cal := rfl
@[simp] theorem sleepFor_hour (d : BitVec 20) : (sleepFor d s).hour = s.hour := rfl
@[simp] theorem sleepFor_dow (d : BitVec 20) : (sleepFor d s).dow = s.dow := rfl
@[simp] theorem sleepFor_p1 (d : BitVec 20) : (sleepFor d s).p1 = s.p1 := rfl
@[simp] theorem sleepFor_p2 (d : BitVec 20) : (sleepFor d s).p2 = s.p2 := rfl
@[simp] theorem sleepFor_p3 (d : BitVec 20) : (sleepFor d s).p3 = s.p3 := rfl
@[simp] theorem sleepFor_secs (d : BitVec 20) : (sleepFor d s).secs = s.secs := rfl
@[simp] theorem sleepFor_us (d : BitVec 20) : (sleepFor d s).us = s.us := rfl
@[simp] theorem sleepFor_sec (d : BitVec 20) : (sleepFor d s).sec = s.sec := rfl
@[simp] theorem sleepFor_digU (d : BitVec 20) : (sleepFor d s).digU = s.digU := rfl
@[simp] theorem sleepFor_digT (d : BitVec 20) : (sleepFor d s).digT = s.digT := rfl
@[simp] theorem sleepFor_trace (d : BitVec 20) : (sleepFor d s).trace = s.trace := rfl
@[simp] theorem sleepFor_status (d : BitVec 20) : (sleepFor d s).status = s.status := rfl
@[simp] theorem sleepFor_env_now (d : BitVec 20) :
    (sleepFor d s).env.now = s.env.now + d.toNat + s.env.nextLat := rfl
@[simp] theorem sleepFor_env_durs (d : BitVec 20) : (sleepFor d s).env.durs = s.env.durs := rfl
@[simp] theorem sleepFor_env_lats (d : BitVec 20) : (sleepFor d s).env.lats = s.env.lats.tail := rfl
@[simp] theorem sleepFor_env_clockOks (d : BitVec 20) : (sleepFor d s).env.clockOks = s.env.clockOks := rfl
@[simp] theorem sleepFor_env_starts (d : BitVec 20) : (sleepFor d s).env.starts = s.env.starts := rfl
@[simp] theorem sleepFor_env_stopReqs (d : BitVec 20) : (sleepFor d s).env.stopReqs = s.env.stopReqs := rfl
@[simp] theorem sleepFor_env_resets (d : BitVec 20) : (sleepFor d s).env.resets = s.env.resets := rfl
@[simp] theorem sleepFor_env_calendar (d : BitVec 20) : (sleepFor d s).env.calendar = s.env.calendar := rfl
@[simp] theorem sleepFor_env_tick (d : BitVec 20) : (sleepFor d s).env.tick = s.env.tick + 1 := rfl

/-! ### setKey -/

@[simp] theorem setKey_frame (on : Bool) : (setKey on s).frame = s.frame := rfl
@[simp] theorem setKey_pc (on : Bool) : (setKey on s).pc = s.pc := rfl
@[simp] theorem setKey_idx (on : Bool) : (setKey on s).idx = s.idx := rfl
@[simp] theorem setKey_key (on : Bool) : (setKey on s).key = on := rfl
@[simp] theorem setKey_tmr (on : Bool) : (setKey on s).tmr = s.tmr := rfl
@[simp] theorem setKey_fault (on : Bool) : (setKey on s).fault = s.fault := rfl
@[simp] theorem setKey_cal (on : Bool) : (setKey on s).cal = s.cal := rfl
@[simp] theorem setKey_hour (on : Bool) : (setKey on s).hour = s.hour := rfl
@[simp] theorem setKey_dow (on : Bool) : (setKey on s).dow = s.dow := rfl
@[simp] theorem setKey_p1 (on : Bool) : (setKey on s).p1 = s.p1 := rfl
@[simp] theorem setKey_p2 (on : Bool) : (setKey on s).p2 = s.p2 := rfl
@[simp] theorem setKey_p3 (on : Bool) : (setKey on s).p3 = s.p3 := rfl
@[simp] theorem setKey_secs (on : Bool) : (setKey on s).secs = s.secs := rfl
@[simp] theorem setKey_us (on : Bool) : (setKey on s).us = s.us := rfl
@[simp] theorem setKey_sec (on : Bool) : (setKey on s).sec = s.sec := rfl
@[simp] theorem setKey_digU (on : Bool) : (setKey on s).digU = s.digU := rfl
@[simp] theorem setKey_digT (on : Bool) : (setKey on s).digT = s.digT := rfl
@[simp] theorem setKey_trace (on : Bool) :
    (setKey on s).trace = s.trace ++ [{ time := s.env.now, on := on }] := rfl
@[simp] theorem setKey_status (on : Bool) : (setKey on s).status = s.status := rfl
@[simp] theorem setKey_env (on : Bool) : (setKey on s).env = s.env := rfl

/-! ### logStatus -/

@[simp] theorem logStatus_frame (w : StatusInfo) : (logStatus w s).frame = s.frame := rfl
@[simp] theorem logStatus_pc (w : StatusInfo) : (logStatus w s).pc = s.pc := rfl
@[simp] theorem logStatus_idx (w : StatusInfo) : (logStatus w s).idx = s.idx := rfl
@[simp] theorem logStatus_key (w : StatusInfo) : (logStatus w s).key = s.key := rfl
@[simp] theorem logStatus_tmr (w : StatusInfo) : (logStatus w s).tmr = s.tmr := rfl
@[simp] theorem logStatus_fault (w : StatusInfo) : (logStatus w s).fault = s.fault := rfl
@[simp] theorem logStatus_cal (w : StatusInfo) : (logStatus w s).cal = s.cal := rfl
@[simp] theorem logStatus_hour (w : StatusInfo) : (logStatus w s).hour = s.hour := rfl
@[simp] theorem logStatus_dow (w : StatusInfo) : (logStatus w s).dow = s.dow := rfl
@[simp] theorem logStatus_p1 (w : StatusInfo) : (logStatus w s).p1 = s.p1 := rfl
@[simp] theorem logStatus_p2 (w : StatusInfo) : (logStatus w s).p2 = s.p2 := rfl
@[simp] theorem logStatus_p3 (w : StatusInfo) : (logStatus w s).p3 = s.p3 := rfl
@[simp] theorem logStatus_secs (w : StatusInfo) : (logStatus w s).secs = s.secs := rfl
@[simp] theorem logStatus_us (w : StatusInfo) : (logStatus w s).us = s.us := rfl
@[simp] theorem logStatus_sec (w : StatusInfo) : (logStatus w s).sec = s.sec := rfl
@[simp] theorem logStatus_digU (w : StatusInfo) : (logStatus w s).digU = s.digU := rfl
@[simp] theorem logStatus_digT (w : StatusInfo) : (logStatus w s).digT = s.digT := rfl
@[simp] theorem logStatus_trace (w : StatusInfo) : (logStatus w s).trace = s.trace := rfl
@[simp] theorem logStatus_status (w : StatusInfo) :
    (logStatus w s).status = s.status ++ [{ time := s.env.now, what := w }] := rfl
@[simp] theorem logStatus_env (w : StatusInfo) : (logStatus w s).env = s.env := rfl

/-! ### goto -/

@[simp] theorem goto_frame (p : SeqCode) : (goto p s).frame = s.frame := rfl
@[simp] theorem goto_pc (p : SeqCode) : (goto p s).pc = p := rfl
@[simp] theorem goto_idx (p : SeqCode) : (goto p s).idx = s.idx := rfl
@[simp] theorem goto_key (p : SeqCode) : (goto p s).key = s.key := rfl
@[simp] theorem goto_tmr (p : SeqCode) : (goto p s).tmr = s.tmr := rfl
@[simp] theorem goto_fault (p : SeqCode) : (goto p s).fault = s.fault := rfl
@[simp] theorem goto_cal (p : SeqCode) : (goto p s).cal = s.cal := rfl
@[simp] theorem goto_hour (p : SeqCode) : (goto p s).hour = s.hour := rfl
@[simp] theorem goto_dow (p : SeqCode) : (goto p s).dow = s.dow := rfl
@[simp] theorem goto_p1 (p : SeqCode) : (goto p s).p1 = s.p1 := rfl
@[simp] theorem goto_p2 (p : SeqCode) : (goto p s).p2 = s.p2 := rfl
@[simp] theorem goto_p3 (p : SeqCode) : (goto p s).p3 = s.p3 := rfl
@[simp] theorem goto_secs (p : SeqCode) : (goto p s).secs = s.secs := rfl
@[simp] theorem goto_us (p : SeqCode) : (goto p s).us = s.us := rfl
@[simp] theorem goto_sec (p : SeqCode) : (goto p s).sec = s.sec := rfl
@[simp] theorem goto_digU (p : SeqCode) : (goto p s).digU = s.digU := rfl
@[simp] theorem goto_digT (p : SeqCode) : (goto p s).digT = s.digT := rfl
@[simp] theorem goto_trace (p : SeqCode) : (goto p s).trace = s.trace := rfl
@[simp] theorem goto_status (p : SeqCode) : (goto p s).status = s.status := rfl
@[simp] theorem goto_env_now (p : SeqCode) : (goto p s).env.now = s.env.now + s.env.nextDur := rfl
@[simp] theorem goto_env_durs (p : SeqCode) : (goto p s).env.durs = s.env.durs.tail := rfl
@[simp] theorem goto_env_lats (p : SeqCode) : (goto p s).env.lats = s.env.lats := rfl
@[simp] theorem goto_env_clockOks (p : SeqCode) : (goto p s).env.clockOks = s.env.clockOks := rfl
@[simp] theorem goto_env_starts (p : SeqCode) : (goto p s).env.starts = s.env.starts := rfl
@[simp] theorem goto_env_stopReqs (p : SeqCode) : (goto p s).env.stopReqs = s.env.stopReqs := rfl
@[simp] theorem goto_env_resets (p : SeqCode) : (goto p s).env.resets = s.env.resets := rfl
@[simp] theorem goto_env_calendar (p : SeqCode) : (goto p s).env.calendar = s.env.calendar := rfl
@[simp] theorem goto_env_tick (p : SeqCode) : (goto p s).env.tick = s.env.tick + 1 := rfl

/-! ### writeCell -/

@[simp] theorem writeCell_frame (i : Nat) (v : Symbol) : (writeCell i v s).frame = s.frame.write i v := rfl
@[simp] theorem writeCell_pc (i : Nat) (v : Symbol) : (writeCell i v s).pc = s.pc := rfl
@[simp] theorem writeCell_idx (i : Nat) (v : Symbol) : (writeCell i v s).idx = s.idx := rfl
@[simp] theorem writeCell_key (i : Nat) (v : Symbol) : (writeCell i v s).key = s.key := rfl
@[simp] theorem writeCell_tmr (i : Nat) (v : Symbol) : (writeCell i v s).tmr = s.tmr := rfl
@[simp] theorem writeCell_fault (i : Nat) (v : Symbol) : (writeCell i v s).fault = s.fault := rfl
@[simp] theorem writeCell_cal (i : Nat) (v : Symbol) : (writeCell i v s).cal = s.cal := rfl
@[simp] theorem writeCell_hour (i : Nat) (v : Symbol) : (writeCell i v s).hour = s.hour := rfl
@[simp] theorem writeCell_dow (i : Nat) (v : Symbol) : (writeCell i v s).dow = s.dow := rfl
@[simp] theorem writeCell_p1 (i : Nat) (v : Symbol) : (writeCell i v s).p1 = s.p1 := rfl
@[simp] theorem writeCell_p2 (i : Nat) (v : Symbol) : (writeCell i v s).p2 = s.p2 := rfl
@[simp] theorem writeCell_p3 (i : Nat) (v : Symbol) : (writeCell i v s).p3 = s.p3 := rfl
@[simp] theorem writeCell_secs (i : Nat) (v : Symbol) : (writeCell i v s).secs = s.secs := rfl
@[simp] theorem writeCell_us (i : Nat) (v : Symbol) : (writeCell i v s).us = s.us := rfl
@[simp] theorem writeCell_sec (i : Nat) (v : Symbol) : (writeCell i v s).sec = s.sec := rfl
@[simp] theorem writeCell_digU (i : Nat) (v : Symbol) : (writeCell i v s).digU = s.digU := rfl
@[simp] theorem writeCell_digT (i : Nat) (v : Symbol) : (writeCell i v s).digT = s.digT := rfl
@[simp] theorem writeCell_trace (i : Nat) (v : Symbol) : (writeCell i v s).trace = s.trace := rfl
@[simp] theorem writeCell_status (i : Nat) (v : Symbol) : (writeCell i v s).status = s.status := rfl
@[simp] theorem writeCell_env (i : Nat) (v : Symbol) : (writeCell i v s).env = s.env := rfl

/-! ### adjustHourStep -/

@[simp] theorem adjustHourStep_frame (h : BitVec 5) (d : Bool) : (adjustHourStep h d s).frame = s.frame := rfl
@[simp] theorem adjustHourStep_pc (h : BitVec 5) (d : Bool) : (adjustHourStep h d s).pc = s.pc := rfl
@[simp] theorem adjustHourStep_idx (h : BitVec 5) (d : Bool) : (adjustHourStep h d s).idx = s.idx := rfl
@[simp] theorem adjustHourStep_key (h : BitVec 5) (d : Bool) : (adjustHourStep h d s).key = s.key := rfl
@[simp] theorem adjustHourStep_tmr (h : BitVec 5) (d : Bool) : (adjustHourStep h d s).tmr = s.tmr := rfl
@[simp] theorem adjustHourStep_fault (h : BitVec 5) (d : Bool) : (adjustHourStep h d s).fault = s.fault := rfl
@[simp] theorem adjustHourStep_cal (h : BitVec 5) (d : Bool) : (adjustHourStep h d s).cal = s.cal := rfl
@[simp] theorem adjustHourStep_hour (h : BitVec 5) (d : Bool) :
    (adjustHourStep h d s).hour = hourOf h d := rfl
@[simp] theorem adjustHourStep_dow (h : BitVec 5) (d : Bool) : (adjustHourStep h d s).dow = s.dow := rfl
@[simp] theorem adjustHourStep_p1 (h : BitVec 5) (d : Bool) : (adjustHourStep h d s).p1 = s.p1 := rfl
@[simp] theorem adjustHourStep_p2 (h : BitVec 5) (d : Bool) : (adjustHourStep h d s).p2 = s.p2 := rfl
@[simp] theorem adjustHourStep_p3 (h : BitVec 5) (d : Bool) : (adjustHourStep h d s).p3 = s.p3 := rfl
@[simp] theorem adjustHourStep_secs (h : BitVec 5) (d : Bool) : (adjustHourStep h d s).secs = s.secs := rfl
@[simp] theorem adjustHourStep_us (h : BitVec 5) (d : Bool) : (adjustHourStep h d s).us = s.us := rfl
@[simp] theorem adjustHourStep_sec (h : BitVec 5) (d : Bool) : (adjustHourStep h d s).sec = s.sec := rfl
@[simp] theorem adjustHourStep_digU (h : BitVec 5) (d : Bool) : (adjustHourStep h d s).digU = s.digU := rfl
@[simp] theorem adjustHourStep_digT (h : BitVec 5) (d : Bool) : (adjustHourStep h d s).digT = s.digT := rfl
@[simp] theorem adjustHourStep_trace (h : BitVec 5) (d : Bool) : (adjustHourStep h d s).trace = s.trace := rfl
@[simp] theorem adjustHourStep_status (h : BitVec 5) (d : Bool) :
    (adjustHourStep h d s).status = s.status := rfl
@[simp] theorem adjustHourStep_env (h : BitVec 5) (d : Bool) : (adjustHourStep h d s).env = s.env := rfl

/-! ### mapDowStep -/

@[simp] theorem mapDowStep_frame (w : BitVec 3) : (mapDowStep w s).frame = s.frame := rfl
@[simp] theorem mapDowStep_pc (w : BitVec 3) : (mapDowStep w s).pc = s.pc := rfl
@[simp] theorem mapDowStep_idx (w : BitVec 3) : (mapDowStep w s).idx = s.idx := rfl
@[simp] theorem mapDowStep_key (w : BitVec 3) : (mapDowStep w s).key = s.key := rfl
@[simp] theorem mapDowStep_tmr (w : BitVec 3) : (mapDowStep w s).tmr = s.tmr := rfl
@[simp] theorem mapDowStep_fault (w : BitVec 3) : (mapDowStep w s).fault = s.fault := rfl
@[simp] theorem mapDowStep_cal (w : BitVec 3) : (mapDowStep w s).cal = s.cal := rfl
@[simp] theorem mapDowStep_hour (w : BitVec 3) : (mapDowStep w s).hour = s.hour := rfl
@[simp] theorem mapDowStep_dow (w : BitVec 3) : (mapDowStep w s).dow = dowOf w := rfl
@[simp] theorem mapDowStep_p1 (w : BitVec 3) : (mapDowStep w s).p1 = s.p1 := rfl
@[simp] theorem mapDowStep_p2 (w : BitVec 3) : (mapDowStep w s).p2 = s.p2 := rfl
@[simp] theorem mapDowStep_p3 (w : BitVec 3) : (mapDowStep w s).p3 = s.p3 := rfl
@[simp] theorem mapDowStep_secs (w : BitVec 3) : (mapDowStep w s).secs = s.secs := rfl
@[simp] theorem mapDowStep_us (w : BitVec 3) : (mapDowStep w s).us = s.us := rfl
@[simp] theorem mapDowStep_sec (w : BitVec 3) : (mapDowStep w s).sec = s.sec := rfl
@[simp] theorem mapDowStep_digU (w : BitVec 3) : (mapDowStep w s).digU = s.digU := rfl
@[simp] theorem mapDowStep_digT (w : BitVec 3) : (mapDowStep w s).digT = s.digT := rfl
@[simp] theorem mapDowStep_trace (w : BitVec 3) : (mapDowStep w s).trace = s.trace := rfl
@[simp] theorem mapDowStep_status (w : BitVec 3) : (mapDowStep w s).status = s.status := rfl
@[simp] theorem mapDowStep_env (w : BitVec 3) : (mapDowStep w s).env = s.env := rfl

/-! ### setParity -/

@[simp] theorem setParity_frame (p : ParSel) (b : Bool) :
    (setParity p b s).frame = s.frame := by cases p <;> rfl
@[simp] theorem setParity_pc (p : ParSel) (b : Bool) : (setParity p b s).pc = s.pc := by cases p <;> rfl
@[simp] theorem setParity_idx (p : ParSel) (b : Bool) : (setParity p b s).idx = s.idx := by cases p <;> rfl
@[simp] theorem setParity_key (p : ParSel) (b : Bool) : (setParity p b s).key = s.key := by cases p <;> rfl
@[simp] theorem setParity_tmr (p : ParSel) (b : Bool) : (setParity p b s).tmr = s.tmr := by cases p <;> rfl
@[simp] theorem setParity_fault (p : ParSel) (b : Bool) :
    (setParity p b s).fault = s.fault := by cases p <;> rfl
@[simp] theorem setParity_cal (p : ParSel) (b : Bool) : (setParity p b s).cal = s.cal := by cases p <;> rfl
@[simp] theorem setParity_hour (p : ParSel) (b : Bool) : (setParity p b s).hour = s.hour := by cases p <;> rfl
@[simp] theorem setParity_dow (p : ParSel) (b : Bool) : (setParity p b s).dow = s.dow := by cases p <;> rfl
@[simp] theorem setParity_p1 (p : ParSel) (b : Bool) :
    (setParity p b s).p1 = if p = .p1 then b else s.p1 := by cases p <;> rfl
@[simp] theorem setParity_p2 (p : ParSel) (b : Bool) :
    (setParity p b s).p2 = if p = .p2 then b else s.p2 := by cases p <;> rfl
@[simp] theorem setParity_p3 (p : ParSel) (b : Bool) :
    (setParity p b s).p3 = if p = .p3 then b else s.p3 := by cases p <;> rfl
@[simp] theorem setParity_secs (p : ParSel) (b : Bool) : (setParity p b s).secs = s.secs := by cases p <;> rfl
@[simp] theorem setParity_us (p : ParSel) (b : Bool) : (setParity p b s).us = s.us := by cases p <;> rfl
@[simp] theorem setParity_sec (p : ParSel) (b : Bool) : (setParity p b s).sec = s.sec := by cases p <;> rfl
@[simp] theorem setParity_digU (p : ParSel) (b : Bool) : (setParity p b s).digU = s.digU := by cases p <;> rfl
@[simp] theorem setParity_digT (p : ParSel) (b : Bool) : (setParity p b s).digT = s.digT := by cases p <;> rfl
@[simp] theorem setParity_trace (p : ParSel) (b : Bool) :
    (setParity p b s).trace = s.trace := by cases p <;> rfl
@[simp] theorem setParity_status (p : ParSel) (b : Bool) :
    (setParity p b s).status = s.status := by cases p <;> rfl
@[simp] theorem setParity_env (p : ParSel) (b : Bool) : (setParity p b s).env = s.env := by cases p <;> rfl

/-! ### queryCalendar -/

@[simp] theorem queryCalendar_frame (d : CalDest) (n : Nat) :
    (queryCalendar d n s).frame = s.frame := by cases d <;> rfl
@[simp] theorem queryCalendar_pc (d : CalDest) (n : Nat) :
    (queryCalendar d n s).pc = s.pc := by cases d <;> rfl
@[simp] theorem queryCalendar_idx (d : CalDest) (n : Nat) :
    (queryCalendar d n s).idx = s.idx := by cases d <;> rfl
@[simp] theorem queryCalendar_key (d : CalDest) (n : Nat) :
    (queryCalendar d n s).key = s.key := by cases d <;> rfl
@[simp] theorem queryCalendar_tmr (d : CalDest) (n : Nat) :
    (queryCalendar d n s).tmr = s.tmr := by cases d <;> rfl
@[simp] theorem queryCalendar_fault (d : CalDest) (n : Nat) :
    (queryCalendar d n s).fault = s.fault := by cases d <;> rfl
@[simp] theorem queryCalendar_cal (d : CalDest) (n : Nat) :
    (queryCalendar d n s).cal = if d = .fields then calOf (s.env.calendarAt n) else s.cal := by cases d <;> rfl
@[simp] theorem queryCalendar_hour (d : CalDest) (n : Nat) :
    (queryCalendar d n s).hour = s.hour := by cases d <;> rfl
@[simp] theorem queryCalendar_dow (d : CalDest) (n : Nat) :
    (queryCalendar d n s).dow = s.dow := by cases d <;> rfl
@[simp] theorem queryCalendar_p1 (d : CalDest) (n : Nat) :
    (queryCalendar d n s).p1 = s.p1 := by cases d <;> rfl
@[simp] theorem queryCalendar_p2 (d : CalDest) (n : Nat) :
    (queryCalendar d n s).p2 = s.p2 := by cases d <;> rfl
@[simp] theorem queryCalendar_p3 (d : CalDest) (n : Nat) :
    (queryCalendar d n s).p3 = s.p3 := by cases d <;> rfl
@[simp] theorem queryCalendar_secs (d : CalDest) (n : Nat) :
    (queryCalendar d n s).secs = s.secs := by cases d <;> rfl
@[simp] theorem queryCalendar_us (d : CalDest) (n : Nat) :
    (queryCalendar d n s).us = s.us := by cases d <;> rfl
@[simp] theorem queryCalendar_sec (d : CalDest) (n : Nat) :
    (queryCalendar d n s).sec = if d = .second then (calOf (s.env.calendarAt n)).sec else s.sec := by cases d <;> rfl
@[simp] theorem queryCalendar_digU (d : CalDest) (n : Nat) :
    (queryCalendar d n s).digU = s.digU := by cases d <;> rfl
@[simp] theorem queryCalendar_digT (d : CalDest) (n : Nat) :
    (queryCalendar d n s).digT = s.digT := by cases d <;> rfl
@[simp] theorem queryCalendar_trace (d : CalDest) (n : Nat) :
    (queryCalendar d n s).trace = s.trace := by cases d <;> rfl
@[simp] theorem queryCalendar_status (d : CalDest) (n : Nat) :
    (queryCalendar d n s).status = s.status := by cases d <;> rfl
@[simp] theorem queryCalendar_env (d : CalDest) (n : Nat) :
    (queryCalendar d n s).env = s.env := by cases d <;> rfl

/-! ### keyOff -/

@[simp] theorem keyOff_frame : (keyOff s).frame = s.frame := rfl
@[simp] theorem keyOff_pc : (keyOff s).pc = s.pc := rfl
@[simp] theorem keyOff_idx : (keyOff s).idx = s.idx := rfl
@[simp] theorem keyOff_key : (keyOff s).key = false := rfl
@[simp] theorem keyOff_tmr : (keyOff s).tmr = s.tmr := rfl
@[simp] theorem keyOff_fault : (keyOff s).fault = s.fault := rfl
@[simp] theorem keyOff_cal : (keyOff s).cal = s.cal := rfl
@[simp] theorem keyOff_hour : (keyOff s).hour = s.hour := rfl
@[simp] theorem keyOff_dow : (keyOff s).dow = s.dow := rfl
@[simp] theorem keyOff_p1 : (keyOff s).p1 = s.p1 := rfl
@[simp] theorem keyOff_p2 : (keyOff s).p2 = s.p2 := rfl
@[simp] theorem keyOff_p3 : (keyOff s).p3 = s.p3 := rfl
@[simp] theorem keyOff_secs : (keyOff s).secs = s.secs := rfl
@[simp] theorem keyOff_us : (keyOff s).us = s.us := rfl
@[simp] theorem keyOff_sec : (keyOff s).sec = s.sec := rfl
@[simp] theorem keyOff_digU : (keyOff s).digU = s.digU := rfl
@[simp] theorem keyOff_digT : (keyOff s).digT = s.digT := rfl
@[simp] theorem keyOff_trace :
    (keyOff s).trace = s.trace ++ [{ time := (elapse s).env.now, on := false }] := rfl
@[simp] theorem keyOff_status : (keyOff s).status = s.status := rfl

/-! ### keyOn -/

@[simp] theorem keyOn_frame : (keyOn s).frame = s.frame := rfl
@[simp] theorem keyOn_pc : (keyOn s).pc = s.pc := rfl
@[simp] theorem keyOn_idx : (keyOn s).idx = s.idx := rfl
@[simp] theorem keyOn_key : (keyOn s).key = true := rfl
@[simp] theorem keyOn_tmr : (keyOn s).tmr = s.tmr := rfl
@[simp] theorem keyOn_fault : (keyOn s).fault = s.fault := rfl
@[simp] theorem keyOn_cal : (keyOn s).cal = s.cal := rfl
@[simp] theorem keyOn_hour : (keyOn s).hour = s.hour := rfl
@[simp] theorem keyOn_dow : (keyOn s).dow = s.dow := rfl
@[simp] theorem keyOn_p1 : (keyOn s).p1 = s.p1 := rfl
@[simp] theorem keyOn_p2 : (keyOn s).p2 = s.p2 := rfl
@[simp] theorem keyOn_p3 : (keyOn s).p3 = s.p3 := rfl
@[simp] theorem keyOn_secs : (keyOn s).secs = s.secs := rfl
@[simp] theorem keyOn_us : (keyOn s).us = s.us := rfl
@[simp] theorem keyOn_sec : (keyOn s).sec = s.sec := rfl
@[simp] theorem keyOn_digU : (keyOn s).digU = s.digU := rfl
@[simp] theorem keyOn_digT : (keyOn s).digT = s.digT := rfl
@[simp] theorem keyOn_trace : (keyOn s).trace = s.trace ++ [{ time := (elapse s).env.now, on := true }] := rfl
@[simp] theorem keyOn_status : (keyOn s).status = s.status := rfl

/-! ### emitStatus -/

@[simp] theorem emitStatus_frame (w : StatusInfo) : (emitStatus w s).frame = s.frame := rfl
@[simp] theorem emitStatus_pc (w : StatusInfo) : (emitStatus w s).pc = s.pc := rfl
@[simp] theorem emitStatus_idx (w : StatusInfo) : (emitStatus w s).idx = s.idx := rfl
@[simp] theorem emitStatus_key (w : StatusInfo) : (emitStatus w s).key = s.key := rfl
@[simp] theorem emitStatus_tmr (w : StatusInfo) : (emitStatus w s).tmr = s.tmr := rfl
@[simp] theorem emitStatus_fault (w : StatusInfo) : (emitStatus w s).fault = s.fault := rfl
@[simp] theorem emitStatus_cal (w : StatusInfo) : (emitStatus w s).cal = s.cal := rfl
@[simp] theorem emitStatus_hour (w : StatusInfo) : (emitStatus w s).hour = s.hour := rfl
@[simp] theorem emitStatus_dow (w : StatusInfo) : (emitStatus w s).dow = s.dow := rfl
@[simp] theorem emitStatus_p1 (w : StatusInfo) : (emitStatus w s).p1 = s.p1 := rfl
@[simp] theorem emitStatus_p2 (w : StatusInfo) : (emitStatus w s).p2 = s.p2 := rfl
@[simp] theorem emitStatus_p3 (w : StatusInfo) : (emitStatus w s).p3 = s.p3 := rfl
@[simp] theorem emitStatus_secs (w : StatusInfo) : (emitStatus w s).secs = s.secs := rfl
@[simp] theorem emitStatus_us (w : StatusInfo) : (emitStatus w s).us = s.us := rfl
@[simp] theorem emitStatus_sec (w : StatusInfo) : (emitStatus w s).sec = s.sec := rfl
@[simp] theorem emitStatus_digU (w : StatusInfo) : (emitStatus w s).digU = s.digU := rfl
@[simp] theorem emitStatus_digT (w : StatusInfo) : (emitStatus w s).digT = s.digT := rfl
@[simp] theorem emitStatus_trace (w : StatusInfo) : (emitStatus w s).trace = s.trace := rfl
@[simp] theorem emitStatus_status (w : StatusInfo) :
    (emitStatus w s).status = s.status ++ [{ time := (elapse s).env.now, what := w }] := rfl

/-! ### pulseOf -/

@[simp] theorem pulseOf_frame (d : Nat) : (pulseOf d s).frame = s.frame := by
  simp [pulseOf, keyOn, keyOff, atOneMoment]
@[simp] theorem pulseOf_pc (d : Nat) : (pulseOf d s).pc = s.pc := by
  simp [pulseOf, keyOn, keyOff, atOneMoment]
@[simp] theorem pulseOf_idx (d : Nat) : (pulseOf d s).idx = s.idx := by
  simp [pulseOf, keyOn, keyOff, atOneMoment]
@[simp] theorem pulseOf_key (d : Nat) : (pulseOf d s).key = true := rfl
@[simp] theorem pulseOf_tmr (d : Nat) : (pulseOf d s).tmr = 0 := rfl
@[simp] theorem pulseOf_fault (d : Nat) : (pulseOf d s).fault = s.fault := by
  simp [pulseOf, keyOn, keyOff, atOneMoment]
@[simp] theorem pulseOf_cal (d : Nat) : (pulseOf d s).cal = s.cal := by
  simp [pulseOf, keyOn, keyOff, atOneMoment]
@[simp] theorem pulseOf_hour (d : Nat) : (pulseOf d s).hour = s.hour := by
  simp [pulseOf, keyOn, keyOff, atOneMoment]
@[simp] theorem pulseOf_dow (d : Nat) : (pulseOf d s).dow = s.dow := by
  simp [pulseOf, keyOn, keyOff, atOneMoment]
@[simp] theorem pulseOf_p1 (d : Nat) : (pulseOf d s).p1 = s.p1 := by
  simp [pulseOf, keyOn, keyOff, atOneMoment]
@[simp] theorem pulseOf_p2 (d : Nat) : (pulseOf d s).p2 = s.p2 := by
  simp [pulseOf, keyOn, keyOff, atOneMoment]
@[simp] theorem pulseOf_p3 (d : Nat) : (pulseOf d s).p3 = s.p3 := by
  simp [pulseOf, keyOn, keyOff, atOneMoment]
@[simp] theorem pulseOf_secs (d : Nat) : (pulseOf d s).secs = s.secs := by
  simp [pulseOf, keyOn, keyOff, atOneMoment]
@[simp] theorem pulseOf_us (d : Nat) : (pulseOf d s).us = s.us := by
  simp [pulseOf, keyOn, keyOff, atOneMoment]
@[simp] theorem pulseOf_sec (d : Nat) : (pulseOf d s).sec = s.sec := by
  simp [pulseOf, keyOn, keyOff, atOneMoment]
@[simp] theorem pulseOf_digU (d : Nat) : (pulseOf d s).digU = s.digU := by
  simp [pulseOf, keyOn, keyOff, atOneMoment]
@[simp] theorem pulseOf_digT (d : Nat) : (pulseOf d s).digT = s.digT := by
  simp [pulseOf, keyOn, keyOff, atOneMoment]
@[simp] theorem pulseOf_status (d : Nat) : (pulseOf d s).status = s.status := by
  simp [pulseOf, keyOn, keyOff, atOneMoment]

end Sys2Proof.Machine
end

