-- ==== Sys2Proof/Laws/Encoder.lean ====
section
/-!
SUPPORT. What each encoder operation writes, said once: the cells of the group as Decode's tables list
them, the accumulator of the group, and nothing else.
-/
namespace Sys2Proof.Machine

/-- `n` bits of a digit from bit `k` on. -/
def bitsFrom (g : BitVec 4) (k n : Nat) : List Bool := (List.range' k n).map g.getLsbD

theorem bitsFrom_zero_eq (g : BitVec 4) (n : Nat) : bitsFrom g 0 n = digitBits n g.toNat := by
  apply List.ext_getElem?
  intro k
  by_cases h : k < n
  · rw [digitBits_getElem?]
    simp [bitsFrom, h, BitVec.getLsbD]
  · simp [bitsFrom, h]

/-- The state after `bits` have been placed from cell `lo` on under accumulator `p` (R71). -/
def placed (bits : List Bool) (lo : Nat) (p : ParSel) (s : State) : State :=
  setParity p (parityOf p s ^^ xorAll bits) { s with frame := s.frame.writeList lo (bits.map symOf) }

theorem placed_append (xs ys : List Bool) (lo : Nat) (p : ParSel) (s : State) :
    placed ys (lo + xs.length) p (placed xs lo p s) = placed (xs ++ ys) lo p s := by
  cases p <;>
    simp [placed, setParity, parityOf, xorAll_append, Frame.writeList_append]

theorem placeBits_eq (g : BitVec 4) (lo : Nat) (p : ParSel) (n k : Nat) (s : State) :
    placeBits g lo p n k s = placed (bitsFrom g k n) (lo + k) p s := by
  induction n generalizing k s with
  | zero => cases p <;> simp [placeBits, placed, bitsFrom, setParity, parityOf, xorAll, Frame.writeList]
  | succ n ih =>
    have h : placeBit (g.getLsbD k) (lo + k) p s = placed [g.getLsbD k] (lo + k) p s := by
      cases p <;> simp [placeBit, placed, xorParity, setParity, parityOf, writeCell, xorAll, Frame.writeList]
    rw [placeBits, ih, h]
    have := placed_append [g.getLsbD k] (bitsFrom g (k + 1) n) (lo + k) p s
    simpa [bitsFrom, List.range'_succ, Nat.add_assoc] using this

/-- LSBF places the low `w` bits of the digit, lowest at `lo`, and adds them to the accumulator (R71). -/
theorem lsbf_eq (g : BitVec 4) (w lo : Nat) (p : ParSel) (s : State) :
    lsbf g w lo p s = placed (digitBits w g.toNat) lo p s := by
  rw [lsbf, placeBits_eq, bitsFrom_zero_eq, Nat.add_zero]

theorem digitBits_unitsDigit (v : BitVec 7) :
    digitBits 4 (unitsDigit v).toNat = digitBits 4 (v.toNat % 10) := by
  rw [unitsDigit, BitVec.toNat_ofNat, digitBits_mod]

theorem digitBits_tensDigit (v : BitVec 7) {w : Nat} (hw : w ≤ 4) :
    digitBits w (tensDigit v w).toNat = digitBits w (v.toNat / 10) := by
  have h : v.toNat / 10 % 2 ^ w < 2 ^ 4 :=
    lt_of_lt_of_le (Nat.mod_lt _ (by positivity)) (Nat.pow_le_pow_right (by norm_num) hw)
  rw [tensDigit, BitVec.toNat_ofNat, Nat.mod_eq_of_lt h, digitBits_mod]

/-- Units then tens of a quantity (R53). -/
theorem placeTwoDigits_eq (v : BitVec 7) {w : Nat} (hw : w ≤ 4) (lo : Nat) (p : ParSel) (s : State) :
    placeTwoDigits v w lo p s = placed (twoDigits w v.toNat) lo p s := by
  rw [placeTwoDigits, lsbf_eq, lsbf_eq, digitBits_unitsDigit, digitBits_tensDigit v hw, twoDigits,
    ← placed_append, digitBits_length]

/-- A whole group from an accumulator of 0, with its parity cell (R74 to R77). -/
theorem parityCell_placed (bits : List Bool) (lo : Nat) (p : ParSel) (s : State) :
    parityCell p (lo + bits.length) (placed bits lo p (setParity p false s)) =
      setParity p (xorAll bits) { s with frame := s.frame.writeList lo (groupCells bits) } := by
  cases p <;>
    simp [parityCell, placed, setParity, parityOf, writeCell, groupCells, Frame.writeList_append,
      Frame.writeList]

/-- ENCMIN writes the minute group and P1 (R75). -/
theorem encodeMinute_eq (min : BitVec 6) (s : State) :
    encodeMinute min s =
      { s with
        frame := s.frame.writeList 21 (minuteCells min.toNat), p1 := xorAll (twoDigits 3 min.toNat) } := by
  have h := parityCell_placed (twoDigits 3 min.toNat) 21 .p1 s
  have hm : (min.setWidth 7).toNat = min.toNat := by simp; omega
  rw [twoDigits_length] at h
  rw [encodeMinute, placeTwoDigits_eq _ (by norm_num), hm]
  exact h

/-- ENCHOUR writes the hour group and P2 (R76). -/
theorem encodeHour_eq (hour : BitVec 5) (s : State) :
    encodeHour hour s =
      { s with
        frame := s.frame.writeList 29 (hourCells hour.toNat), p2 := xorAll (twoDigits 2 hour.toNat) } := by
  have h := parityCell_placed (twoDigits 2 hour.toNat) 29 .p2 s
  have hm : (hour.setWidth 7).toNat = hour.toNat := by simp; omega
  rw [twoDigits_length] at h
  rw [encodeHour, placeTwoDigits_eq _ (by norm_num), hm]
  exact h

/-- The 22 bits under the date parity (R77). -/
def dateBits (mday dow mon year2 : Nat) : List Bool :=
  twoDigits 2 mday ++ (digitBits 3 dow ++ (twoDigits 1 mon ++ twoDigits 4 year2))

/-- ENCDATE writes the date group and P3 (R77). -/
theorem encodeDate_eq (mday : BitVec 5) (dow : BitVec 3) (mon : BitVec 4) (year2 : BitVec 7) (s : State) :
    encodeDate mday dow mon year2 s =
      { s with
        frame := s.frame.writeList 36 (dateCells mday.toNat dow.toNat mon.toNat year2.toNat)
        p3 := xorAll (dateBits mday.toNat dow.toNat mon.toNat year2.toNat) } := by
  have h := parityCell_placed (dateBits mday.toNat dow.toNat mon.toNat year2.toNat) 36 .p3 s
  have hl : (dateBits mday.toNat dow.toNat mon.toNat year2.toNat).length = 22 := by simp [dateBits]
  rw [hl] at h
  have hd : (mday.setWidth 7).toNat = mday.toNat := by simp; omega
  have hm : (mon.setWidth 7).toNat = mon.toNat := by simp; omega
  have hw : (dow.setWidth 4).toNat = dow.toNat := by simp; omega
  have hp : ∀ t, placed (twoDigits 4 year2.toNat) 50 .p3 (placed (twoDigits 1 mon.toNat) 45 .p3
      (placed (digitBits 3 dow.toNat) 42 .p3 (placed (twoDigits 2 mday.toNat) 36 .p3 t))) =
      placed (dateBits mday.toNat dow.toNat mon.toNat year2.toNat) 36 .p3 t := by
    intro t
    have a := placed_append (twoDigits 2 mday.toNat) (digitBits 3 dow.toNat) 36 .p3 t
    have b := placed_append (twoDigits 2 mday.toNat ++ digitBits 3 dow.toNat) (twoDigits 1 mon.toNat) 36 .p3 t
    have c := placed_append (twoDigits 2 mday.toNat ++ digitBits 3 dow.toNat ++ twoDigits 1 mon.toNat)
      (twoDigits 4 year2.toNat) 36 .p3 t
    simp only [List.length_append, twoDigits_length, digitBits_length, List.append_assoc] at a b c
    rw [a, b, c]; rfl
  rw [encodeDate, placeTwoDigits_eq _ (by norm_num), placeTwoDigits_eq _ (by norm_num),
    placeTwoDigits_eq _ (by norm_num), lsbf_eq, hd, hm, hw, hp,
    show dateCells mday.toNat dow.toNat mon.toNat year2.toNat =
      groupCells (dateBits mday.toNat dow.toNat mon.toNat year2.toNat) from rfl, h]
  simp only [setParity]

/-- DSTPAIR writes its two cells (R72). -/
theorem dstPair_eq (dst : Bool) (s : State) :
    dstPair dst s = { s with frame := s.frame.writeList 17 (dstCells dst) } := rfl

theorem hourOf_toNat (hraw : BitVec 5) (dst : Bool) : (hourOf hraw dst).toNat = codedHour hraw.toNat dst := by
  have : codedHour hraw.toNat dst < 2 ^ 5 := lt_trans (Nat.mod_lt _ (by norm_num)) (by norm_num)
  simp only [hourOf, adjustHour, BitVec.toNat_ofNat]
  exact Nat.mod_eq_of_lt this

theorem dowOf_toNat (wraw : BitVec 3) : (dowOf wraw).toNat = codedDow wraw.toNat := by
  revert wraw; decide

/-! FIXPAT writes F alone (R73). -/

@[simp] theorem fixPattern_pc (pre : Nat → Symbol) (s : State) : (fixPattern pre s).pc = s.pc := by
  simp only [fixPattern]

@[simp] theorem fixPattern_idx (pre : Nat → Symbol) (s : State) : (fixPattern pre s).idx = s.idx := by
  simp only [fixPattern]

@[simp] theorem fixPattern_key (pre : Nat → Symbol) (s : State) : (fixPattern pre s).key = s.key := by
  simp only [fixPattern]

@[simp] theorem fixPattern_tmr (pre : Nat → Symbol) (s : State) : (fixPattern pre s).tmr = s.tmr := by
  simp only [fixPattern]

@[simp] theorem fixPattern_fault (pre : Nat → Symbol) (s : State) : (fixPattern pre s).fault = s.fault := by
  simp only [fixPattern]

@[simp] theorem fixPattern_cal (pre : Nat → Symbol) (s : State) : (fixPattern pre s).cal = s.cal := by
  simp only [fixPattern]

@[simp] theorem fixPattern_hour (pre : Nat → Symbol) (s : State) : (fixPattern pre s).hour = s.hour := by
  simp only [fixPattern]

@[simp] theorem fixPattern_dow (pre : Nat → Symbol) (s : State) : (fixPattern pre s).dow = s.dow := by
  simp only [fixPattern]

@[simp] theorem fixPattern_p1 (pre : Nat → Symbol) (s : State) : (fixPattern pre s).p1 = s.p1 := by
  simp only [fixPattern]

@[simp] theorem fixPattern_p2 (pre : Nat → Symbol) (s : State) : (fixPattern pre s).p2 = s.p2 := by
  simp only [fixPattern]

@[simp] theorem fixPattern_p3 (pre : Nat → Symbol) (s : State) : (fixPattern pre s).p3 = s.p3 := by
  simp only [fixPattern]

@[simp] theorem fixPattern_secs (pre : Nat → Symbol) (s : State) : (fixPattern pre s).secs = s.secs := by
  simp only [fixPattern]

@[simp] theorem fixPattern_us (pre : Nat → Symbol) (s : State) : (fixPattern pre s).us = s.us := by
  simp only [fixPattern]

@[simp] theorem fixPattern_sec (pre : Nat → Symbol) (s : State) : (fixPattern pre s).sec = s.sec := by
  simp only [fixPattern]

@[simp] theorem fixPattern_digU (pre : Nat → Symbol) (s : State) : (fixPattern pre s).digU = s.digU := by
  simp only [fixPattern]

@[simp] theorem fixPattern_digT (pre : Nat → Symbol) (s : State) : (fixPattern pre s).digT = s.digT := by
  simp only [fixPattern]

@[simp] theorem fixPattern_trace (pre : Nat → Symbol) (s : State) : (fixPattern pre s).trace = s.trace := by
  simp only [fixPattern]

@[simp] theorem fixPattern_status (pre : Nat → Symbol) (s : State) : (fixPattern pre s).status = s.status := by
  simp only [fixPattern]

@[simp] theorem fixPattern_env (pre : Nat → Symbol) (s : State) : (fixPattern pre s).env = s.env := by
  simp only [fixPattern]

/-- BUILDFRAME's registers, and F as the sequence of its group writes (R78). -/
theorem assembleFrame_eq (pre : Nat → Symbol) (c : CalFields) (s : State) :
    assembleFrame pre c s =
      { s with
        frame := ((((fixPattern pre s).frame.writeList 17 (dstCells c.dst)).writeList 21
          (minuteCells c.min.toNat)).writeList 29 (hourCells (codedHour c.hraw.toNat c.dst))).writeList 36
          (dateCells c.mday.toNat (codedDow c.wraw.toNat) c.mon.toNat c.year2.toNat)
        hour := hourOf c.hraw c.dst
        dow := dowOf c.wraw
        p1 := xorAll (twoDigits 3 c.min.toNat)
        p2 := xorAll (twoDigits 2 (codedHour c.hraw.toNat c.dst))
        p3 := xorAll (dateBits c.mday.toNat (codedDow c.wraw.toNat) c.mon.toNat c.year2.toNat) } := by
  simp only [assembleFrame, encodeDate_eq, encodeHour_eq, encodeMinute_eq, dstPair_eq, adjustHourStep,
    mapDowStep, hourOf_toNat, dowOf_toNat, fixPattern]

/-! The fields that BUILDFRAME leaves alone, and those it writes beside F (R78). -/

@[simp] theorem assembleFrame_pc (pre : Nat → Symbol) (c : CalFields) (s : State) :
    (assembleFrame pre c s).pc = s.pc := by rw [assembleFrame_eq]

@[simp] theorem assembleFrame_idx (pre : Nat → Symbol) (c : CalFields) (s : State) :
    (assembleFrame pre c s).idx = s.idx := by rw [assembleFrame_eq]

@[simp] theorem assembleFrame_key (pre : Nat → Symbol) (c : CalFields) (s : State) :
    (assembleFrame pre c s).key = s.key := by rw [assembleFrame_eq]

@[simp] theorem assembleFrame_tmr (pre : Nat → Symbol) (c : CalFields) (s : State) :
    (assembleFrame pre c s).tmr = s.tmr := by rw [assembleFrame_eq]

@[simp] theorem assembleFrame_fault (pre : Nat → Symbol) (c : CalFields) (s : State) :
    (assembleFrame pre c s).fault = s.fault := by rw [assembleFrame_eq]

@[simp] theorem assembleFrame_cal (pre : Nat → Symbol) (c : CalFields) (s : State) :
    (assembleFrame pre c s).cal = s.cal := by rw [assembleFrame_eq]

@[simp] theorem assembleFrame_secs (pre : Nat → Symbol) (c : CalFields) (s : State) :
    (assembleFrame pre c s).secs = s.secs := by rw [assembleFrame_eq]

@[simp] theorem assembleFrame_us (pre : Nat → Symbol) (c : CalFields) (s : State) :
    (assembleFrame pre c s).us = s.us := by rw [assembleFrame_eq]

@[simp] theorem assembleFrame_sec (pre : Nat → Symbol) (c : CalFields) (s : State) :
    (assembleFrame pre c s).sec = s.sec := by rw [assembleFrame_eq]

@[simp] theorem assembleFrame_digU (pre : Nat → Symbol) (c : CalFields) (s : State) :
    (assembleFrame pre c s).digU = s.digU := by rw [assembleFrame_eq]

@[simp] theorem assembleFrame_digT (pre : Nat → Symbol) (c : CalFields) (s : State) :
    (assembleFrame pre c s).digT = s.digT := by rw [assembleFrame_eq]

@[simp] theorem assembleFrame_trace (pre : Nat → Symbol) (c : CalFields) (s : State) :
    (assembleFrame pre c s).trace = s.trace := by rw [assembleFrame_eq]

@[simp] theorem assembleFrame_status (pre : Nat → Symbol) (c : CalFields) (s : State) :
    (assembleFrame pre c s).status = s.status := by rw [assembleFrame_eq]

@[simp] theorem assembleFrame_env (pre : Nat → Symbol) (c : CalFields) (s : State) :
    (assembleFrame pre c s).env = s.env := by rw [assembleFrame_eq]

@[simp] theorem assembleFrame_hour (pre : Nat → Symbol) (c : CalFields) (s : State) :
    (assembleFrame pre c s).hour = hourOf c.hraw c.dst := by rw [assembleFrame_eq]

@[simp] theorem assembleFrame_dow (pre : Nat → Symbol) (c : CalFields) (s : State) :
    (assembleFrame pre c s).dow = dowOf c.wraw := by rw [assembleFrame_eq]

/-- The frame BUILDFRAME leaves, cell by cell: the pattern of R52, whatever F held before (R78, R79). -/
theorem read_assembleFrame (pre : Nat → Symbol) (c : CalFields) (s : State) {j : Nat} (hj : j < Config.nSym) :
    (assembleFrame pre c s).frame.read j = (frameCells pre c)[j]? := by
  have hj' : j < 60 := hj
  simp only [assembleFrame_eq, fixPattern, frameCells, Frame.read_writeList, Frame.read_write,
    List.getElem?_cons, List.getElem?_append, minuteCells_length, hourCells_length, dateCells_length,
    preambleCells_length, dstCells_length]
  have hcases : j = 0 ∨ (∃ k < 16, j = 1 + k) ∨ (j = 17 ∨ j = 18 ∨ j = 19 ∨ j = 20) ∨ (∃ k < 8, j = 21 + k) ∨
      (∃ k < 7, j = 29 + k) ∨ (∃ k < 23, j = 36 + k) ∨ j = 59 := by
    rcases Nat.lt_or_ge j 1 with h | h
    · exact .inl (by omega)
    rcases Nat.lt_or_ge j 17 with h1 | h1
    · exact .inr (.inl ⟨j - 1, by omega, by omega⟩)
    rcases Nat.lt_or_ge j 21 with h2 | h2
    · exact .inr (.inr (.inl (by omega)))
    rcases Nat.lt_or_ge j 29 with h3 | h3
    · exact .inr (.inr (.inr (.inl ⟨j - 21, by omega, by omega⟩)))
    rcases Nat.lt_or_ge j 36 with h4 | h4
    · exact .inr (.inr (.inr (.inr (.inl ⟨j - 29, by omega, by omega⟩))))
    rcases Nat.lt_or_ge j 59 with h5 | h5
    · exact .inr (.inr (.inr (.inr (.inr (.inl ⟨j - 36, by omega, by omega⟩)))))
    · exact .inr (.inr (.inr (.inr (.inr (.inr (by omega))))))
  rcases hcases with rfl | ⟨k, hk, rfl⟩ | (rfl | rfl | rfl | rfl) | ⟨k, hk, rfl⟩ | ⟨k, hk, rfl⟩ | ⟨k, hk, rfl⟩ | rfl
  all_goals first
    | (simp (disch := omega) only [if_pos, if_neg]; done)
    | (simp; done)
    | (simp (disch := omega) only [if_pos, if_neg]; congr 1)

end Sys2Proof.Machine
end

