-- ==== Sys2Proof/Laws/Ops.lean ====
section
/-!
SUPPORT. What each shared operation can do, said once: time only goes forward, a clock read latches one
moment or raises, a wait reaches the boundary, a pulse is one off and one on, reset inside a step.
-/
namespace Sys2Proof

@[refl] theorem Safety.EnvKept.refl (s : Machine.State) : Safety.EnvKept s s := ⟨rfl, rfl, Nat.le_refl _⟩

@[trans] theorem Safety.EnvKept.trans {s t u : Machine.State} (h : Safety.EnvKept s t)
    (h' : Safety.EnvKept t u) : Safety.EnvKept s u :=
  ⟨h'.1.trans h.1, h'.2.1.trans h.2.1, h.2.2.trans h'.2.2⟩

end Sys2Proof

namespace Sys2Proof.Machine

open Sys2Proof.Safety

/-! ### Time and the environment -/

/-- Only the environment counts for EnvKept. -/
theorem envKept_of_env {s t s' t' : State} (h : EnvKept s t) (hs : s'.env = s.env) (ht : t'.env = t.env) :
    EnvKept s' t' := by
  unfold EnvKept; rw [hs, ht]; exact h

theorem envKept_elapse (s : State) : EnvKept s (elapse s) := ⟨rfl, rfl, Nat.le_add_right _ _⟩

theorem envKept_takeClockOk (s : State) : EnvKept s (takeClockOk s) := ⟨rfl, rfl, Nat.le_refl _⟩

theorem envKept_takeStart (s : State) : EnvKept s (takeStart s) := ⟨rfl, rfl, Nat.le_refl _⟩

theorem envKept_takeStop (s : State) : EnvKept s (takeStop s) := ⟨rfl, rfl, Nat.le_refl _⟩

/-- A sleep takes at least the time asked for (R108). -/
theorem now_sleepFor (d : BitVec 20) (s : State) : s.env.now + d.toNat ≤ (sleepFor d s).env.now :=
  Nat.le_add_right _ _

theorem envKept_sleepFor (d : BitVec 20) (s : State) : EnvKept s (sleepFor d s) :=
  ⟨rfl, rfl, (Nat.le_add_right _ _).trans (now_sleepFor d s)⟩

theorem envKept_goto (p : SeqCode) (s : State) : EnvKept s (goto p s) := envKept_elapse s

theorem envKept_raiseFault (x : CoreFault) (s : State) : EnvKept s (raiseFault x s) := EnvKept.refl s

/-- An act that leaves the environment alone, done at one moment of the time it takes. -/
theorem envKept_atOneMoment {act : State → State} (h : ∀ s, (act s).env = s.env) (s : State) :
    EnvKept s (atOneMoment act s) :=
  (envKept_elapse s).trans (envKept_of_env (envKept_elapse _) (h _).symm rfl)

/-! ### The clock and the waits -/

/-- The state in which a step goes on after a clock read that succeeds (R106). -/
def clockLatched (s : State) : State := atOneMoment latchClock (takeClockOk s)

theorem clockReadThen_ok {s : State} (h : s.env.nextClockOk = true) (k : State → State) :
    clockReadThen k s = k (clockLatched s) := if_pos h

theorem clockReadThen_fail {s : State} (h : s.env.nextClockOk = false) (k : State → State) :
    clockReadThen k s = raiseFault .clockReadFailure (elapse (takeClockOk s)) := by
  simp [clockReadThen, h]

theorem raised_of_clock_failure {s : State} (k : State → State) (h : s.env.nextClockOk = false) :
    Raised .clockReadFailure s (clockReadThen k s) ∧ EnvKept s (clockReadThen k s) := by
  rw [clockReadThen_fail h]
  exact ⟨rfl, (envKept_takeClockOk s).trans ((envKept_elapse _).trans (envKept_raiseFault _ _))⟩

theorem envKept_clockLatched (s : State) : EnvKept s (clockLatched s) :=
  (envKept_takeClockOk s).trans (envKept_atOneMoment (fun _ => rfl) _)

/-- A clock read takes the clock at one moment of the step (R106). -/
theorem clockLatched_spec (s : State) :
    ∃ w, s.env.now ≤ w ∧ w ≤ (clockLatched s).env.now ∧
      clockLatched s = { s with
        secs := w / 1000000, us := .ofNat 20 (w % 1000000), env := (clockLatched s).env } :=
  ⟨s.env.now + (takeClockOk s).env.nextDur, Nat.le_add_right _ _, Nat.le_add_right _ _, by
    ext1 <;> simp [clockLatched, atOneMoment]⟩

/-- The state in which a step goes on after WAITB (R116). -/
def waited (s : State) : State :=
  sleepFor (.ofNat 20 Config.secUs - (clockLatched s).us) (clockLatched s)

theorem waitThen_ok {s : State} (h : s.env.nextClockOk = true) (k : State → State) :
    waitThen k s = k (waited s) := clockReadThen_ok h _

theorem envKept_waited (s : State) : EnvKept s (waited s) :=
  (envKept_clockLatched s).trans (envKept_sleepFor _ _)

theorem toNat_ofNat_sub {n r : Nat} (hn : n < 2 ^ 20) (h : r < n) :
    (BitVec.ofNat 20 n - BitVec.ofNat 20 r).toNat = n - r := by
  simp only [BitVec.toNat_sub, BitVec.toNat_ofNat]
  omega

/-- WAITB never ends before the next second boundary (R116). -/
theorem waited_spec (s : State) :
    ∃ w, s.env.now ≤ w ∧ w + (1000000 - w % 1000000) ≤ (waited s).env.now ∧
      waited s = { s with
        secs := w / 1000000, us := .ofNat 20 (w % 1000000), tmr := 0, env := (waited s).env } := by
  obtain ⟨w, h0, h1, h2⟩ := clockLatched_spec s
  have hus : (clockLatched s).us = .ofNat 20 (w % 1000000) := by rw [h2]
  have h := now_sleepFor (.ofNat 20 Config.secUs - (clockLatched s).us) (clockLatched s)
  rw [hus, show Config.secUs = 1000000 from rfl,
    toNat_ofNat_sub (n := 1000000) (r := w % 1000000) (by norm_num) (Nat.mod_lt _ (by norm_num)), ← hus] at h
  unfold waited
  rw [show Config.secUs = 1000000 from rfl]
  generalize BitVec.ofNat 20 1000000 - (clockLatched s).us = d at h ⊢
  refine ⟨w, h0, by omega, ?_⟩
  have e : sleepFor d (clockLatched s) =
      { clockLatched s with tmr := 0, env := (sleepFor d (clockLatched s)).env } := rfl
  generalize (sleepFor d (clockLatched s)).env = E at e ⊢
  rw [e, h2]

/-- Without a stop input a wait state is WAITB and its continuation (R104). -/
theorem waitStep_noStop (k : State → State) (s : State) : waitStep Config.hasStop k s = waitThen k s := rfl

/-! ### Pulses and status lines -/

/-- A pulse is one off and one on, at least the nominal time apart (R112, R113). -/
theorem pulseOf_spec {d : Nat} (hd : d < 2 ^ 20) (s : State) :
    OnePulse d s (pulseOf d s) ∧ EnvKept s (pulseOf d s) ∧
      pulseOf d s = { s with
        key := true, tmr := 0, trace := (pulseOf d s).trace, env := (pulseOf d s).env } := by
  have hoff : EnvKept s (keyOff s) := envKept_atOneMoment (fun _ => rfl) s
  have hon : ∀ t, EnvKept t (keyOn t) := envKept_atOneMoment (fun _ => rfl)
  refine ⟨⟨(elapse s).env.now, (elapse (sleepFor (.ofNat 20 d) (keyOff s))).env.now, ?_,
    (envKept_elapse s).2.2, ?_, Nat.le_add_right _ _⟩, hoff.trans ((envKept_sleepFor _ _).trans (hon _)), ?_⟩
  · simp [pulseOf, keyOn, keyOff, atOneMoment]
  · have h1 : (elapse s).env.now ≤ (keyOff s).env.now := Nat.le_add_right _ _
    have h2 := now_sleepFor (.ofNat 20 d) (keyOff s)
    have h3 := (envKept_elapse (sleepFor (.ofNat 20 d) (keyOff s))).2.2
    rw [BitVec.toNat_ofNat, Nat.mod_eq_of_lt hd] at h2
    omega
  · ext1 <;> simp

/-- A status line is recorded and no register changes (R117). -/
theorem emitStatus_spec (what : StatusInfo) (s : State) :
    EnvKept s (emitStatus what s) ∧ ∃ u, s.env.now ≤ u ∧ u ≤ (emitStatus what s).env.now ∧
      emitStatus what s = { s with
        status := s.status ++ [{ time := u, what := what }], env := (emitStatus what s).env } :=
  ⟨envKept_atOneMoment (fun _ => rfl) s, (elapse s).env.now, (envKept_elapse s).2.2, Nat.le_add_right _ _, rfl⟩

/-! ### The calendar -/

/-- The time source answers in range (R15, R107). -/
theorem calOf_inRange (a : CalAnswer) : (calOf a).toCalFields.inRange = true ∧ (calOf a).sec.toNat ≤ 60 := by
  obtain ⟨sec, min, hraw, mday, wraw, mon, year2, dst⟩ := a
  have := sec.isLt; have := min.isLt; have := hraw.isLt; have := mday.isLt; have := wraw.isLt
  have := mon.isLt; have := year2.isLt
  simp only [calOf, CalFields.inRange, BitVec.toNat_ofNat, Bool.and_eq_true, decide_eq_true_eq]
  omega

/-- Calendar is the same function wherever the environment is kept (R107). -/
theorem calendarAt_of_envKept {s t : State} (h : EnvKept s t) (n : Nat) :
    t.env.calendarAt n = s.env.calendarAt n := by
  simp only [Env.calendarAt, h.1]

/-- So the launch premise R155 is kept, count by count. -/
theorem consistentAt_of_envKept {s t : State} (h : EnvKept s t) (n : Nat) :
    t.env.consistentAt n = s.env.consistentAt n := by
  simp only [Env.consistentAt, calendarAt_of_envKept h]

/-- A consistent time source counts its seconds modulo 60 (R155). -/
theorem sec_of_consistentOn {e : Env} {lo n : Nat} (h : e.ConsistentOn lo n) {k : Nat} (hk : k < n) :
    (e.calendarAt (lo + (k + 1))).sec.val = ((e.calendarAt lo).sec.val + (k + 1)) % 60 := by
  have hs : ∀ j < n, (e.calendarAt (lo + (j + 1))).sec.val = ((e.calendarAt (lo + j)).sec.val + 1) % 60 := by
    intro j hj
    have := h j hj
    simp only [Env.consistentAt, Bool.and_eq_true, beq_iff_eq] at this
    exact this.1
  induction k with
  | zero => exact hs 0 hk
  | succ k ih => rw [hs (k + 1) hk, ih (by omega)]; omega

/-- The minute of the instant 60 seconds later is the one that follows (R155). -/
theorem min_of_consistentAt {e : Env} {s : Nat} (h : e.consistentAt s = true) :
    (e.calendarAt (s + 60)).min.val = ((e.calendarAt s).min.val + 1) % 60 := by
  simp only [Env.consistentAt, Bool.and_eq_true, beq_iff_eq] at h
  exact h.2

/-! ### Steps -/

/-- Every code of PC decodes (R58, R62). -/
theorem decode_seq (b : SeqCode) : decode (.seq b) = .ok (decodeSeq b) := rfl

theorem step_of_no_reset {s : State} (h : s.env.resets = []) : step s = exec (fetchInstr s) s := by
  simp [step, underReset, h]

/-- What a step under the reset input can be (R132, R141): the micro-operation, a reset before it, or a reset
inside it. -/
theorem step_cases {s t : State} (h : step s = .next t) :
    (exec (fetchInstr s) s = .next t ∧ (s.env.resets = [] ∨ ∃ r rest, s.env.resets = r :: rest ∧
      s.env.now < r.rise ∧ t.env.now ≤ r.rise)) ∨
    (∃ r rest, s.env.resets = r :: rest ∧ r.rise ≤ s.env.now ∧ t = resetBy r rest s) ∨
    (∃ r rest u, s.env.resets = r :: rest ∧ s.env.now < r.rise ∧ r.rise < u.env.now ∧
      exec (fetchInstr s) s = .next u ∧ t = resetBy r rest (cutAt r.rise s u)) := by
  simp only [step, underReset] at h
  split at h
  · exact .inl ⟨h, .inl ‹_›⟩
  · rename_i r rest hr
    split at h
    · cases h
      exact .inr (.inl ⟨r, rest, hr, ‹_›, rfl⟩)
    · rename_i hlt
      split at h
      · rename_i u hu
        split at h
        · cases h
          exact .inr (.inr ⟨r, rest, u, hr, by omega, ‹_›, hu, rfl⟩)
        · cases h
          exact .inl ⟨hu, .inr ⟨r, rest, hr, by omega, by omega⟩⟩
      · cases h
      · cases h

end Sys2Proof.Machine
end

