-- ==== Sys2Proof/Laws/Sequencer.lean ====
section
/-!
SUPPORT. What every instruction does to the environment, the trace and the frame's form, said once: time goes
forward, the key events recorded are those that lead from the old KEY to the new one, and the groups the
encoder writes read back and stay in canonical form.
-/
namespace Sys2Proof.Machine

open Sys2Proof.Safety

/-! ### The environment -/

theorem envKept_pulse (sy : Symbol) (s : State) : EnvKept s (pulse sy s) := by
  unfold pulse
  split
  · exact (pulseOf_spec (by norm_num) s).2.1
  split
  · exact (pulseOf_spec (by norm_num) s).2.1
  split
  · exact EnvKept.refl s
  · exact (envKept_elapse s).trans (envKept_raiseFault _ _)

theorem envKept_clockReadThen {k : State → State} (hk : ∀ s, EnvKept s (k s)) (s : State) :
    EnvKept s (clockReadThen k s) := by
  cases h : s.env.nextClockOk
  · exact (raised_of_clock_failure k h).2
  · rw [clockReadThen_ok h]
    exact (envKept_clockLatched s).trans (hk _)

theorem envKept_waitThen {k : State → State} (hk : ∀ s, EnvKept s (k s)) (s : State) :
    EnvKept s (waitThen k s) :=
  envKept_clockReadThen (fun _ => (envKept_sleepFor _ _).trans (hk _)) s

theorem envKept_unlessStopped (hasStop : Bool) {k : State → State} (hk : ∀ s, EnvKept s (k s)) (s : State) :
    EnvKept s (unlessStopped hasStop k s) := by
  unfold unlessStopped
  split
  · split
    · exact (envKept_takeStop s).trans (envKept_goto _ _)
    · exact (envKept_takeStop s).trans (hk _)
  · exact hk s

/-- A stop request that is sampled at 1 ends the step in IDLE (R104). -/
theorem unlessStopped_of_stop {s : State} (h : s.env.nextStop = true) (k : State → State) :
    unlessStopped true k s = goto Config.pcIdle (takeStop s) := by
  simp only [unlessStopped, if_true, h]

/-- Sampled at 0, the step goes on (R104). -/
theorem unlessStopped_of_go {s : State} (h : s.env.nextStop = false) (k : State → State) :
    unlessStopped true k s = k (takeStop s) := by
  simp [unlessStopped, h]

theorem envKept_waitStep (hasStop : Bool) {k : State → State} (hk : ∀ s, EnvKept s (k s)) (s : State) :
    EnvKept s (waitStep hasStop k s) := envKept_waitThen (envKept_unlessStopped hasStop hk) s

theorem envKept_queryCalendar (dest : CalDest) (n : Nat) (s : State) : EnvKept s (queryCalendar dest n s) := by
  cases dest <;> exact EnvKept.refl s

theorem envKept_emitStatus (what : StatusInfo) (s : State) : EnvKept s (emitStatus what s) :=
  (emitStatus_spec what s).1

theorem envKept_pollStep (s : State) : EnvKept s (pollStep s) :=
  ((envKept_queryCalendar _ _ s).trans (envKept_elapse _)).trans
    ((envKept_emitStatus _ _).trans (envKept_goto _ _))

theorem envKept_fixPattern (pre : Nat → Symbol) (s : State) : EnvKept s (fixPattern pre s) :=
  envKept_of_env (EnvKept.refl s) rfl (fixPattern_env pre s)

theorem envKept_encodeDate (mday : BitVec 5) (dow : BitVec 3) (mon : BitVec 4) (year2 : BitVec 7) (s : State) :
    EnvKept s (encodeDate mday dow mon year2 s) := by
  rw [encodeDate_eq]
  generalize s.frame.writeList 36 _ = f
  exact ⟨rfl, rfl, Nat.le_refl _⟩

theorem envKept_assembleFrame (pre : Nat → Symbol) (c : CalFields) (s : State) :
    EnvKept s (assembleFrame pre c s) := envKept_of_env (EnvKept.refl s) rfl (assembleFrame_env pre c s)

theorem envKept_goto_idx (p : SeqCode) (i : BitVec 6) (s : State) :
    EnvKept s (goto p { s with idx := i }) := envKept_of_env (envKept_elapse s) rfl rfl

theorem envKept_buildStep (s : State) : EnvKept s (buildStep s) := by
  have h := (envKept_queryCalendar .fields (s.secs + Config.advS) s).trans (envKept_elapse _)
  unfold buildStep
  generalize elapse (queryCalendar .fields (s.secs + Config.advS) s) = t at h ⊢
  exact h.trans ((envKept_assembleFrame _ _ t).trans (envKept_goto_idx _ _ _))

theorem envKept_emitStep (sy : Symbol) (s : State) : EnvKept s (emitStep sy s) := by
  unfold emitStep
  split
  · exact (envKept_elapse s).trans (envKept_raiseFault _ _)
  · exact (envKept_emitStatus _ s).trans ((envKept_pulse _ _).trans (envKept_goto _ _))

theorem envKept_advanceStep (s : State) : EnvKept s (advanceStep s) := by
  unfold advanceStep
  split
  · exact envKept_goto _ _
  · exact envKept_of_env (envKept_elapse s) rfl rfl

theorem fetchSymbolThen_cases {k : Symbol → State} {s t : State} (h : fetchSymbolThen k s = .next t) :
    ∃ sy, s.idx.toNat < Config.nSym ∧ s.frame.read s.idx.toNat = some sy ∧ t = k sy := by
  unfold fetchSymbolThen at h
  split at h
  · cases h
  · split at h
    · cases h
    · cases h
      exact ⟨_, by omega, ‹_›, rfl⟩

/-! ### The trace -/

/-- The events recorded from `s` to `t` are those that lead from the one KEY to the other. -/
def KeyLogged (s t : State) : Prop := ∃ evs, t.trace = s.trace ++ evs ∧ keyAfter s.key evs = t.key

theorem keyAfter_append (k : Bool) (xs ys : List KeyEvent) :
    keyAfter k (xs ++ ys) = keyAfter (keyAfter k xs) ys := by
  induction xs generalizing k with
  | nil => rfl
  | cons x xs ih => exact ih x.on

theorem keyLogged_of_same {s t : State} (ht : t.trace = s.trace) (hk : t.key = s.key) : KeyLogged s t :=
  ⟨[], by simp [ht], hk.symm⟩

theorem KeyLogged.trans {s t u : State} : KeyLogged s t → KeyLogged t u → KeyLogged s u := by
  rintro ⟨xs, h1, h2⟩ ⟨ys, h3, h4⟩
  exact ⟨xs ++ ys, by rw [h3, h1, List.append_assoc], by rw [keyAfter_append, h2, h4]⟩

theorem keyLogged_pulseOf (d : Nat) (s : State) : KeyLogged s (pulseOf d s) :=
  ⟨[{ time := (elapse s).env.now, on := false },
    { time := (elapse (sleepFor (.ofNat 20 d) (keyOff s))).env.now, on := true }],
    by simp [pulseOf, keyOn, keyOff, atOneMoment], rfl⟩

theorem keyLogged_pulse (sy : Symbol) (s : State) : KeyLogged s (pulse sy s) := by
  unfold pulse
  generalize Config.t0Us = d0
  generalize Config.t1Us = d1
  split
  · exact keyLogged_pulseOf d0 s
  split
  · exact keyLogged_pulseOf d1 s
  split
  · exact keyLogged_of_same (s := s) (t := s) rfl rfl
  · exact keyLogged_of_same (s := s) (t := raiseFault .illegalSymbol (elapse s)) rfl rfl

theorem keyLogged_resetCore (s : State) : KeyLogged s (resetCore s) := by
  cases h : s.key
  · exact ⟨[{ time := s.env.now, on := true }], by simp [resetCore, h], rfl⟩
  · exact keyLogged_of_same (by simp [resetCore, h]) (by rw [h]; rfl)

/-! ### The frame -/

theorem reset_frame_wf : State.reset.frame.wf = true := rfl

theorem wf_fixPattern (pre : Nat → Symbol) {s : State} (h : s.frame.wf = true) :
    (fixPattern pre s).frame.wf = true := by
  have h1 : ((s.frame.write 0 Config.f0Sym).writeList 1 (preambleCells pre)).wf = true :=
    Frame.wf_writeList (by simp [Config.nSym]) (Frame.wf_write _ (by decide) h)
  dsimp only [fixPattern]
  generalize (s.frame.write 0 Config.f0Sym).writeList 1 (preambleCells pre) = f at h1 ⊢
  exact Frame.wf_write _ (by decide) (Frame.wf_write _ (by decide) (Frame.wf_write _ (by decide) h1))

theorem wf_placed {bits : List Bool} {lo : Nat} (hlo : lo + bits.length ≤ Config.nSym) (p : ParSel) {s : State}
    (h : s.frame.wf = true) : (placed bits lo p s).frame.wf = true := by
  have : (s.frame.writeList lo (bits.map symOf)).wf = true := Frame.wf_writeList (by simpa using hlo) h
  cases p <;> exact this

/-- BUILDFRAME keeps the frame's canonical form. -/
theorem wf_assembleFrame (pre : Nat → Symbol) (c : CalFields) {s : State} (h : s.frame.wf = true) :
    (assembleFrame pre c s).frame.wf = true := by
  rw [assembleFrame_eq]
  have hf := wf_fixPattern pre h
  dsimp only
  generalize (fixPattern pre s).frame = f at hf ⊢
  refine Frame.wf_writeList ?_ (Frame.wf_writeList ?_ (Frame.wf_writeList ?_ (Frame.wf_writeList ?_ hf)))
  all_goals simp [Config.nSym]

theorem bitAt_of_read {f : Frame} {i : Nat} {b : Bool} (h : f.read i = some (symOf b)) : bitAt f i = b := by
  rw [bitAt, h]
  cases b <;> decide

/-- A run of cells that hold given bits reads as those bits. -/
theorem map_bitAt {f : Frame} {lo : Nat} {bits : List Bool}
    (hf : ∀ k < bits.length, f.read (lo + k) = some (symOf (bits[k]?.getD false))) :
    (List.range' lo bits.length).map (bitAt f) = bits := by
  apply List.ext_getElem?
  intro k
  by_cases h : k < bits.length
  · simp [h, bitAt_of_read (hf k h)]
  · simp [h]

/-- Cell `k` of a group holds bit `k` of its content (R53). -/
theorem group_reads (f : Frame) (lo : Nat) {k : Nat} {bits : List Bool} (hk : k < bits.length) :
    (f.writeList lo (groupCells bits)).read (lo + k) = some (symOf (bits[k]?.getD false)) := by
  simp [Frame.read_writeList, groupCells, show k < bits.length + 1 by omega, hk]

/-- The cell after a group's content holds its exclusive-or (R56). -/
theorem group_parity (f : Frame) (lo : Nat) (bits : List Bool) :
    (f.writeList lo (groupCells bits)).read (lo + bits.length) = some (symOf (xorAll bits)) := by
  simp [Frame.read_writeList, groupCells]

theorem group_xor (f : Frame) (lo : Nat) (bits : List Bool) :
    xorCells (f.writeList lo (groupCells bits)) lo bits.length = xorAll bits := by
  rw [xorCells, map_bitAt fun _ => group_reads f lo]

/-- The fixed cells after FIXPAT, and every other cell as it was (R73). -/
theorem read_fixPattern (pre : Nat → Symbol) (s : State) (a : Nat) :
    (fixPattern pre s).frame.read a =
      if a = 0 ∨ a = 59 then some Config.symNone else if a = 20 then some Config.symZero
      else if (1 ≤ a ∧ a ≤ 16) ∨ a = 19 then some (pre a) else s.frame.read a := by
  simp only [fixPattern, Frame.read_write, Frame.read_writeList, preambleCells_length]
  by_cases h0 : a = 0
  · subst h0; simp
  by_cases h59 : a = 59
  · subst h59; simp
  by_cases h20 : a = 20
  · subst h20; simp
  by_cases h19 : a = 19
  · subst h19; simp
  by_cases hr : 1 ≤ a ∧ a ≤ 16
  · rw [if_neg h59, if_neg h20, if_neg h19, if_pos (by omega), if_neg (by omega), if_neg h20, if_pos (by omega)]
    simp [preambleCells, show a - 1 < 16 by omega, show 1 + (a - 1) = a by omega]
  · rw [if_neg h59, if_neg h20, if_neg h19, if_neg (by omega), if_neg h0, if_neg (by omega), if_neg h20,
      if_neg (by omega)]

end Sys2Proof.Machine
end

