-- ==== Sys2Proof/Laws/Composite.lean ====
section
/-!
SUPPORT. Beside Laws/State: one lemma per field for the composite operations, each naming a field that the
operation leaves as it was or the value it writes.
-/
namespace Sys2Proof.Machine

/-! ### The clock and the waits (R106, R116) -/

@[simp] theorem clockLatched_frame (s : State) : (clockLatched s).frame = s.frame := by
  simp [clockLatched, atOneMoment]

@[simp] theorem clockLatched_pc (s : State) : (clockLatched s).pc = s.pc := by
  simp [clockLatched, atOneMoment]

@[simp] theorem clockLatched_idx (s : State) : (clockLatched s).idx = s.idx := by
  simp [clockLatched, atOneMoment]

@[simp] theorem clockLatched_key (s : State) : (clockLatched s).key = s.key := by
  simp [clockLatched, atOneMoment]

@[simp] theorem clockLatched_tmr (s : State) : (clockLatched s).tmr = s.tmr := by
  simp [clockLatched, atOneMoment]

@[simp] theorem clockLatched_fault (s : State) : (clockLatched s).fault = s.fault := by
  simp [clockLatched, atOneMoment]

@[simp] theorem clockLatched_cal (s : State) : (clockLatched s).cal = s.cal := by
  simp [clockLatched, atOneMoment]

@[simp] theorem clockLatched_hour (s : State) : (clockLatched s).hour = s.hour := by
  simp [clockLatched, atOneMoment]

@[simp] theorem clockLatched_dow (s : State) : (clockLatched s).dow = s.dow := by
  simp [clockLatched, atOneMoment]

@[simp] theorem clockLatched_p1 (s : State) : (clockLatched s).p1 = s.p1 := by
  simp [clockLatched, atOneMoment]

@[simp] theorem clockLatched_p2 (s : State) : (clockLatched s).p2 = s.p2 := by
  simp [clockLatched, atOneMoment]

@[simp] theorem clockLatched_p3 (s : State) : (clockLatched s).p3 = s.p3 := by
  simp [clockLatched, atOneMoment]

@[simp] theorem clockLatched_sec (s : State) : (clockLatched s).sec = s.sec := by
  simp [clockLatched, atOneMoment]

@[simp] theorem clockLatched_digU (s : State) : (clockLatched s).digU = s.digU := by
  simp [clockLatched, atOneMoment]

@[simp] theorem clockLatched_digT (s : State) : (clockLatched s).digT = s.digT := by
  simp [clockLatched, atOneMoment]

@[simp] theorem clockLatched_trace (s : State) : (clockLatched s).trace = s.trace := by
  simp [clockLatched, atOneMoment]

@[simp] theorem clockLatched_status (s : State) : (clockLatched s).status = s.status := by
  simp [clockLatched, atOneMoment]

@[simp] theorem waited_frame (s : State) : (waited s).frame = s.frame := by
  simp [waited]

@[simp] theorem waited_pc (s : State) : (waited s).pc = s.pc := by
  simp [waited]

@[simp] theorem waited_idx (s : State) : (waited s).idx = s.idx := by
  simp [waited]

@[simp] theorem waited_key (s : State) : (waited s).key = s.key := by
  simp [waited]

@[simp] theorem waited_fault (s : State) : (waited s).fault = s.fault := by
  simp [waited]

@[simp] theorem waited_cal (s : State) : (waited s).cal = s.cal := by
  simp [waited]

@[simp] theorem waited_hour (s : State) : (waited s).hour = s.hour := by
  simp [waited]

@[simp] theorem waited_dow (s : State) : (waited s).dow = s.dow := by
  simp [waited]

@[simp] theorem waited_p1 (s : State) : (waited s).p1 = s.p1 := by
  simp [waited]

@[simp] theorem waited_p2 (s : State) : (waited s).p2 = s.p2 := by
  simp [waited]

@[simp] theorem waited_p3 (s : State) : (waited s).p3 = s.p3 := by
  simp [waited]

@[simp] theorem waited_sec (s : State) : (waited s).sec = s.sec := by
  simp [waited]

@[simp] theorem waited_digU (s : State) : (waited s).digU = s.digU := by
  simp [waited]

@[simp] theorem waited_digT (s : State) : (waited s).digT = s.digT := by
  simp [waited]

@[simp] theorem waited_trace (s : State) : (waited s).trace = s.trace := by
  simp [waited]

@[simp] theorem waited_status (s : State) : (waited s).status = s.status := by
  simp [waited]

@[simp] theorem waited_tmr (s : State) : (waited s).tmr = 0 := rfl

/-- With the durations and the lateness named, the wait's clock read and its end to the microsecond (R116). -/
theorem waited_exact {s : State} {a b l : Nat} {durs lats : List Nat} (hd : s.env.durs = a :: b :: durs)
    (hl : s.env.lats = l :: lats) :
    (waited s).us = .ofNat 20 ((s.env.now + a) % 1000000) ∧
      (waited s).env.now = s.env.now + a + b + (1000000 - (s.env.now + a) % 1000000) + l ∧
      (waited s).env.durs = durs := by
  have hus : (clockLatched s).us = .ofNat 20 ((s.env.now + a) % 1000000) := by
    simp [clockLatched, atOneMoment, Env.nextDur, hd]
  have hnow : (clockLatched s).env.now = s.env.now + a + b := by
    simp [clockLatched, atOneMoment, Env.nextDur, hd]
  have hlats : (clockLatched s).env.lats = l :: lats := by simp [clockLatched, atOneMoment, hl]
  have hdurs : (clockLatched s).env.durs = durs := by simp [clockLatched, atOneMoment, hd]
  have hsub := toNat_ofNat_sub (n := 1000000) (r := (s.env.now + a) % 1000000) (by norm_num)
    (Nat.mod_lt _ (by norm_num))
  unfold waited
  refine ⟨by rw [sleepFor_us, hus], ?_, by simp [hdurs]⟩
  rw [sleepFor_env_now, hus, hnow, show Config.secUs = 1000000 from rfl, hsub]
  simp [Env.nextLat, hlats]

/-! ### Pulses (R112 to R115) -/

@[simp] theorem pulse_frame (sy : Symbol) (s : State) : (pulse sy s).frame = s.frame := by
  unfold pulse
  split_ifs <;> simp

@[simp] theorem pulse_idx (sy : Symbol) (s : State) : (pulse sy s).idx = s.idx := by
  unfold pulse
  split_ifs <;> simp

@[simp] theorem pulse_cal (sy : Symbol) (s : State) : (pulse sy s).cal = s.cal := by
  unfold pulse
  split_ifs <;> simp

@[simp] theorem pulse_hour (sy : Symbol) (s : State) : (pulse sy s).hour = s.hour := by
  unfold pulse
  split_ifs <;> simp

@[simp] theorem pulse_dow (sy : Symbol) (s : State) : (pulse sy s).dow = s.dow := by
  unfold pulse
  split_ifs <;> simp

@[simp] theorem pulse_p1 (sy : Symbol) (s : State) : (pulse sy s).p1 = s.p1 := by
  unfold pulse
  split_ifs <;> simp

@[simp] theorem pulse_p2 (sy : Symbol) (s : State) : (pulse sy s).p2 = s.p2 := by
  unfold pulse
  split_ifs <;> simp

@[simp] theorem pulse_p3 (sy : Symbol) (s : State) : (pulse sy s).p3 = s.p3 := by
  unfold pulse
  split_ifs <;> simp

@[simp] theorem pulse_secs (sy : Symbol) (s : State) : (pulse sy s).secs = s.secs := by
  unfold pulse
  split_ifs <;> simp

@[simp] theorem pulse_us (sy : Symbol) (s : State) : (pulse sy s).us = s.us := by
  unfold pulse
  split_ifs <;> simp

@[simp] theorem pulse_sec (sy : Symbol) (s : State) : (pulse sy s).sec = s.sec := by
  unfold pulse
  split_ifs <;> simp

@[simp] theorem pulse_digU (sy : Symbol) (s : State) : (pulse sy s).digU = s.digU := by
  unfold pulse
  split_ifs <;> simp

@[simp] theorem pulse_digT (sy : Symbol) (s : State) : (pulse sy s).digT = s.digT := by
  unfold pulse
  split_ifs <;> simp

@[simp] theorem pulse_status (sy : Symbol) (s : State) : (pulse sy s).status = s.status := by
  unfold pulse
  split_ifs <;> simp

/-- NONE does nothing (R114). -/
@[simp] theorem pulse_none (s : State) : pulse Config.symNone s = s := rfl

/-- A symbol that is not reserved raises nothing (R112 to R114). -/
theorem pulse_fault {sy : Symbol} (h : sy ≠ Config.symReserved) (s : State) : (pulse sy s).fault = s.fault := by
  have : sy = Config.symZero ∨ sy = Config.symOne ∨ sy = Config.symNone := by revert sy; decide
  unfold pulse
  split_ifs <;> simp_all

theorem pulse_pc {sy : Symbol} (h : sy ≠ Config.symReserved) (s : State) : (pulse sy s).pc = s.pc := by
  have : sy = Config.symZero ∨ sy = Config.symOne ∨ sy = Config.symNone := by revert sy; decide
  unfold pulse
  split_ifs <;> simp_all

/-! ### ACQ_POLL after its clock read (R89) -/

@[simp] theorem pollStep_frame (s : State) : (pollStep s).frame = s.frame := by
  simp [pollStep, pollDecision, queryCalendar]

@[simp] theorem pollStep_idx (s : State) : (pollStep s).idx = s.idx := by
  simp [pollStep, pollDecision, queryCalendar]

@[simp] theorem pollStep_key (s : State) : (pollStep s).key = s.key := by
  simp [pollStep, pollDecision, queryCalendar]

@[simp] theorem pollStep_tmr (s : State) : (pollStep s).tmr = s.tmr := by
  simp [pollStep, pollDecision, queryCalendar]

@[simp] theorem pollStep_fault (s : State) : (pollStep s).fault = s.fault := by
  simp [pollStep, pollDecision, queryCalendar]

@[simp] theorem pollStep_cal (s : State) : (pollStep s).cal = s.cal := by
  simp [pollStep, pollDecision, queryCalendar]

@[simp] theorem pollStep_hour (s : State) : (pollStep s).hour = s.hour := by
  simp [pollStep, pollDecision, queryCalendar]

@[simp] theorem pollStep_dow (s : State) : (pollStep s).dow = s.dow := by
  simp [pollStep, pollDecision, queryCalendar]

@[simp] theorem pollStep_p1 (s : State) : (pollStep s).p1 = s.p1 := by
  simp [pollStep, pollDecision, queryCalendar]

@[simp] theorem pollStep_p2 (s : State) : (pollStep s).p2 = s.p2 := by
  simp [pollStep, pollDecision, queryCalendar]

@[simp] theorem pollStep_p3 (s : State) : (pollStep s).p3 = s.p3 := by
  simp [pollStep, pollDecision, queryCalendar]

@[simp] theorem pollStep_secs (s : State) : (pollStep s).secs = s.secs := by
  simp [pollStep, pollDecision, queryCalendar]

@[simp] theorem pollStep_us (s : State) : (pollStep s).us = s.us := by
  simp [pollStep, pollDecision, queryCalendar]

@[simp] theorem pollStep_digU (s : State) : (pollStep s).digU = s.digU := by
  simp [pollStep, pollDecision, queryCalendar]

@[simp] theorem pollStep_digT (s : State) : (pollStep s).digT = s.digT := by
  simp [pollStep, pollDecision, queryCalendar]

@[simp] theorem pollStep_trace (s : State) : (pollStep s).trace = s.trace := by
  simp [pollStep, pollDecision, queryCalendar]

@[simp] theorem pollStep_sec (s : State) : (pollStep s).sec = (calOf (s.env.calendarAt s.secs)).sec := by
  simp [pollStep, pollDecision, queryCalendar]

@[simp] theorem pollStep_pc (s : State) :
    (pollStep s).pc = if (calOf (s.env.calendarAt s.secs)).sec = Config.acqSec then Config.pcS59Emit
      else Config.pcAcqWait := by
  simp only [pollStep, pollDecision, queryCalendar, goto_pc, emitStatus_sec, elapse_sec]
  congr

/-! ### BUILD after its clock read (R95) -/

@[simp] theorem buildStep_key (s : State) : (buildStep s).key = s.key := by
  simp [buildStep]

@[simp] theorem buildStep_tmr (s : State) : (buildStep s).tmr = s.tmr := by
  simp [buildStep]

@[simp] theorem buildStep_fault (s : State) : (buildStep s).fault = s.fault := by
  simp [buildStep]

@[simp] theorem buildStep_secs (s : State) : (buildStep s).secs = s.secs := by
  simp [buildStep]

@[simp] theorem buildStep_us (s : State) : (buildStep s).us = s.us := by
  simp [buildStep]

@[simp] theorem buildStep_sec (s : State) : (buildStep s).sec = s.sec := by
  simp [buildStep]

@[simp] theorem buildStep_digU (s : State) : (buildStep s).digU = s.digU := by
  simp [buildStep]

@[simp] theorem buildStep_digT (s : State) : (buildStep s).digT = s.digT := by
  simp [buildStep]

@[simp] theorem buildStep_trace (s : State) : (buildStep s).trace = s.trace := by
  simp [buildStep]

@[simp] theorem buildStep_status (s : State) : (buildStep s).status = s.status := by
  simp [buildStep]

@[simp] theorem buildStep_pc (s : State) : (buildStep s).pc = Config.pcDEmit := by simp [buildStep]

@[simp] theorem buildStep_idx (s : State) : (buildStep s).idx = Config.firstData := by simp [buildStep]

@[simp] theorem buildStep_cal (s : State) :
    (buildStep s).cal = calOf (s.env.calendarAt (s.secs + Config.advS)) := by
  simp [buildStep, queryCalendar]

/-- The frame BUILD leaves is that of the answer it took (R95). -/
theorem buildStep_frame (s : State) :
    (buildStep s).frame = (assembleFrame Config.preamble (buildStep s).cal.toCalFields
      (elapse (queryCalendar .fields (s.secs + Config.advS) s))).frame := by
  simp [buildStep, queryCalendar]

end Sys2Proof.Machine
end

