-- ==== Sys2Proof/Laws/Exec.lean ====
section
/-!
SUPPORT. What every instruction keeps of its environment, by cases on the instruction.
-/
namespace Sys2Proof.Machine

open Sys2Proof.Safety

/-- No instruction changes Calendar or the schedule of rst, and none turns the clock back (R105, R107, R111). -/
theorem exec_envKept {i : Instr} {s t : State} (h : exec i s = .next t) : EnvKept s t := by
  cases i with
  | sym0 =>
    obtain rfl := Host.Outcome.next.inj h
    exact envKept_pulse _ s
  | sym1 =>
    obtain rfl := Host.Outcome.next.inj h
    exact envKept_pulse _ s
  | symN =>
    obtain rfl := Host.Outcome.next.inj h
    exact envKept_pulse _ s
  | symReserved =>
    obtain rfl := Host.Outcome.next.inj h
    exact envKept_pulse _ s
  | idle =>
    obtain rfl := Host.Outcome.next.inj h
    exact (envKept_takeStart s).trans (envKept_goto _ _)
  | acqPoll =>
    obtain rfl := Host.Outcome.next.inj h
    exact envKept_clockReadThen envKept_pollStep s
  | acqWait =>
    obtain rfl := Host.Outcome.next.inj h
    exact envKept_waitStep _ (envKept_goto _) s
  | s59Emit =>
    obtain rfl := Host.Outcome.next.inj h
    exact (envKept_emitStatus _ s).trans ((envKept_pulse _ _).trans (envKept_goto _ _))
  | s59Wait =>
    obtain rfl := Host.Outcome.next.inj h
    exact envKept_waitStep _ (envKept_goto _) s
  | s0Emit =>
    obtain rfl := Host.Outcome.next.inj h
    exact (envKept_emitStatus _ s).trans ((envKept_pulse _ _).trans (envKept_goto _ _))
  | s0Wait =>
    obtain rfl := Host.Outcome.next.inj h
    exact envKept_waitStep _ (envKept_goto _) s
  | build =>
    obtain rfl := Host.Outcome.next.inj h
    exact envKept_clockReadThen envKept_buildStep s
  | dEmit =>
    obtain ⟨sy, -, -, rfl⟩ := fetchSymbolThen_cases h
    exact envKept_emitStep sy s
  | dWait =>
    obtain rfl := Host.Outcome.next.inj h
    exact envKept_waitStep _ envKept_advanceStep s
  | halt =>
    obtain rfl := Host.Outcome.next.inj h
    exact envKept_of_env (envKept_elapse s) rfl rfl
  | seqUnused1010 =>
    obtain rfl := Host.Outcome.next.inj h
    exact envKept_elapse s
  | seqUnused1011 =>
    obtain rfl := Host.Outcome.next.inj h
    exact envKept_elapse s
  | seqUnused1100 =>
    obtain rfl := Host.Outcome.next.inj h
    exact envKept_elapse s
  | seqUnused1101 =>
    obtain rfl := Host.Outcome.next.inj h
    exact envKept_elapse s
  | seqUnused1110 =>
    obtain rfl := Host.Outcome.next.inj h
    exact envKept_elapse s
  | buildFrame c =>
    rw [← Host.Outcome.next.inj (show Host.Outcome.next (elapse (assembleFrame _ c s)) = .next t from h)]
    exact (envKept_assembleFrame _ c s).trans (envKept_elapse _)
  | fixPat =>
    rw [← Host.Outcome.next.inj (show Host.Outcome.next (elapse (fixPattern _ s)) = .next t from h)]
    exact (envKept_fixPattern _ s).trans (envKept_elapse _)
  | dstPair d =>
    obtain rfl := Host.Outcome.next.inj h
    exact envKept_of_env (envKept_elapse s) rfl rfl
  | encMin m =>
    obtain rfl := Host.Outcome.next.inj h
    rw [encodeMinute_eq]
    exact envKept_of_env (envKept_elapse s) rfl rfl
  | encHour m =>
    obtain rfl := Host.Outcome.next.inj h
    rw [encodeHour_eq]
    exact envKept_of_env (envKept_elapse s) rfl rfl
  | encDate a b c d =>
    rw [← Host.Outcome.next.inj (show Host.Outcome.next (elapse (encodeDate a b c d s)) = .next t from h)]
    exact (envKept_encodeDate a b c d s).trans (envKept_elapse _)
  | hrAdj a b =>
    obtain rfl := Host.Outcome.next.inj h
    exact envKept_of_env (envKept_elapse s) rfl rfl
  | dowMap a =>
    obtain rfl := Host.Outcome.next.inj h
    exact envKept_of_env (envKept_elapse s) rfl rfl
  | bcdU a =>
    obtain rfl := Host.Outcome.next.inj h
    exact envKept_of_env (envKept_elapse s) rfl rfl
  | bcdT a b =>
    obtain rfl := Host.Outcome.next.inj h
    exact envKept_of_env (envKept_elapse s) rfl rfl
  | lsbF g w lo p =>
    simp only [exec, execLsbF] at h
    split at h
    · cases h
    · obtain rfl := Host.Outcome.next.inj h
      rw [lsbf_eq]
      cases p <;> exact envKept_of_env (envKept_elapse s) rfl rfl
  | par p pi =>
    simp only [exec, execPar] at h
    split at h
    · cases h
    · obtain rfl := Host.Outcome.next.inj h
      exact envKept_of_env (envKept_elapse s) rfl rfl
  | clockRead =>
    obtain rfl := Host.Outcome.next.inj h
    exact envKept_clockReadThen (fun s => EnvKept.refl s) s
  | calendar d n =>
    obtain rfl := Host.Outcome.next.inj h
    exact (envKept_queryCalendar d n s).trans (envKept_elapse _)
  | sleep d =>
    obtain rfl := Host.Outcome.next.inj h
    exact envKept_sleepFor d s
  | keyOff =>
    obtain rfl := Host.Outcome.next.inj h
    exact envKept_atOneMoment (fun _ => rfl) s
  | keyOn =>
    obtain rfl := Host.Outcome.next.inj h
    exact envKept_atOneMoment (fun _ => rfl) s
  | pulse sy =>
    obtain rfl := Host.Outcome.next.inj h
    exact envKept_pulse _ s
  | waitB =>
    obtain rfl := Host.Outcome.next.inj h
    exact envKept_waitThen (fun s => EnvKept.refl s) s
  | status w =>
    obtain rfl := Host.Outcome.next.inj h
    exact envKept_emitStatus w s
  | raise x =>
    obtain rfl := Host.Outcome.next.inj h
    exact envKept_of_env (envKept_elapse s) rfl rfl
  | reset =>
    obtain rfl := Host.Outcome.next.inj h
    exact EnvKept.refl s

end Sys2Proof.Machine
end

