-- ==== Sys2Proof/Laws/PerInstr.lean ====
section
/-!
SUPPORT. One statement per instruction: its stored code has the fixed length of its row (30_encoding R49),
and FUNC and PRIM operations have none.
-/
namespace Sys2Proof.Laws.FixedLength

/-- The length of a code: bits for a symbol or a state, cells for a group (R49). -/
def codeLength : Code → Nat
  | .sym _ => 2
  | .seq _ => 4
  | .field _ cells => cells.length
  | .frame cells => cells.length

/-- The `width` of each row of opcode_table.json. -/
def rowWidth : Instr → Option Nat
  | .sym0 => some 2
  | .sym1 => some 2
  | .symN => some 2
  | .symReserved => some 2
  | .idle => some 4
  | .acqPoll => some 4
  | .acqWait => some 4
  | .s59Emit => some 4
  | .s59Wait => some 4
  | .s0Emit => some 4
  | .s0Wait => some 4
  | .build => some 4
  | .dEmit => some 4
  | .dWait => some 4
  | .halt => some 4
  | .seqUnused1010 => some 4
  | .seqUnused1011 => some 4
  | .seqUnused1100 => some 4
  | .seqUnused1101 => some 4
  | .seqUnused1110 => some 4
  | .buildFrame _ => some 60
  | .fixPat => some 21
  | .dstPair _ => some 2
  | .encMin _ => some 8
  | .encHour _ => some 7
  | .encDate _ _ _ _ => some 23
  | .hrAdj _ _ => none
  | .dowMap _ => none
  | .bcdU _ => none
  | .bcdT _ _ => none
  | .lsbF _ _ _ _ => none
  | .par _ _ => none
  | .clockRead => none
  | .calendar _ _ => none
  | .sleep _ => none
  | .keyOff => none
  | .keyOn => none
  | .pulse _ => none
  | .waitB => none
  | .status _ => none
  | .raise _ => none
  | .reset => none

/-- The code of `i`, at every value of its operands, has the width of its row. -/
def Statement (i : Instr) : Prop := (encode i).map codeLength = rowWidth i

theorem sym0 : Statement .sym0 := rfl
theorem sym1 : Statement .sym1 := rfl
theorem symN : Statement .symN := rfl
theorem symReserved : Statement .symReserved := rfl
theorem idle : Statement .idle := rfl
theorem acqPoll : Statement .acqPoll := rfl
theorem acqWait : Statement .acqWait := rfl
theorem s59Emit : Statement .s59Emit := rfl
theorem s59Wait : Statement .s59Wait := rfl
theorem s0Emit : Statement .s0Emit := rfl
theorem s0Wait : Statement .s0Wait := rfl
theorem build : Statement .build := rfl
theorem dEmit : Statement .dEmit := rfl
theorem dWait : Statement .dWait := rfl
theorem halt : Statement .halt := rfl
theorem seqUnused1010 : Statement .seqUnused1010 := rfl
theorem seqUnused1011 : Statement .seqUnused1011 := rfl
theorem seqUnused1100 : Statement .seqUnused1100 := rfl
theorem seqUnused1101 : Statement .seqUnused1101 := rfl
theorem seqUnused1110 : Statement .seqUnused1110 := rfl
theorem buildFrame (cal : CalFields) : Statement (.buildFrame cal) :=
  by simp [Statement, encode, codeLength, rowWidth]
theorem fixPat : Statement .fixPat := by simp [Statement, encode, codeLength, rowWidth, fixCells]
theorem dstPair (dst : Bool) : Statement (.dstPair dst) := rfl
theorem encMin (min : BitVec 6) : Statement (.encMin min) := by simp [Statement, encode, codeLength, rowWidth]
theorem encHour (hour : BitVec 5) : Statement (.encHour hour) :=
  by simp [Statement, encode, codeLength, rowWidth]
theorem encDate (mday : BitVec 5) (dow : BitVec 3) (mon : BitVec 4) (year2 : BitVec 7) : Statement (.encDate mday dow mon year2) :=
  by simp [Statement, encode, codeLength, rowWidth]
theorem hrAdj (hraw : BitVec 5) (dst : Bool) : Statement (.hrAdj hraw dst) := rfl
theorem dowMap (wraw : BitVec 3) : Statement (.dowMap wraw) := rfl
theorem bcdU (v : BitVec 7) : Statement (.bcdU v) := rfl
theorem bcdT (v : BitVec 7) (w : BitVec 3) : Statement (.bcdT v w) := rfl
theorem lsbF (g : BitVec 4) (w : BitVec 3) (lo : BitVec 6) (p : ParSel) : Statement (.lsbF g w lo p) := rfl
theorem par (p : ParSel) (pi : BitVec 6) : Statement (.par p pi) := rfl
theorem clockRead : Statement .clockRead := rfl
theorem calendar (dest : CalDest) (s : Nat) : Statement (.calendar dest s) := rfl
theorem sleep (d : BitVec 20) : Statement (.sleep d) := rfl
theorem keyOff : Statement .keyOff := rfl
theorem keyOn : Statement .keyOn := rfl
theorem pulse (sy : Symbol) : Statement (.pulse sy) := rfl
theorem waitB : Statement .waitB := rfl
theorem status (what : StatusInfo) : Statement (.status what) := rfl
theorem raise (x : CoreFault) : Statement (.raise x) := rfl
theorem reset : Statement .reset := rfl

end Sys2Proof.Laws.FixedLength
end

