-- ==== Sys2Proof/Tests/Slice0.lean ====
section
/-!
SUPPORT. The model's own tests: what WellFormed refuses, codes written out from the spec, one step each against
95_test_vectors, and for each statement with hypotheses a state that meets them.
-/
namespace Sys2Proof.Tests.Slice0

open Sys2Proof.Machine Sys2Proof.Safety

/-! ### Helpers: an ideal environment (every duration and lateness 0) and what a step left -/

def calm (now : Nat) : Env :=
  { Env.initial with
    now := now, durs := List.replicate 12 0, lats := [0, 0], clockOks := [true, true], starts := [true] }

/-- The state at `pc` in the ideal environment at wall clock `now`. -/
def atPc (pc : SeqCode) (now : Nat) : State := { State.reset with pc := pc, env := calm now }

/-- The same with the clock read about to fail. -/
def failing (pc : SeqCode) : State :=
  { State.reset with pc := pc, idx := 30, env := { calm 0 with clockOks := [false] } }

/-- A field of the next state. -/
def left {α : Type} (f : State → α) : Host.Outcome State Fault Refusal → Option α
  | .next t => some (f t)
  | .fault _ => none
  | .refused _ => none

/-- `n` cells of the frame from `lo` on. -/
def row (lo n : Nat) (s : State) : List (Option Symbol) := (List.range' lo n).map s.frame.read

/-- The frame from `lo` on holds these cells. -/
def agrees : Nat → List Symbol → State → Bool
  | _, [], _ => true
  | lo, c :: r, s => s.frame.read lo == some c && agrees (lo + 1) r s

def rejected (c : Code) : Option DecodeErr :=
  match decode c with
  | .ok _ => none
  | .error e => some e

/-- An answer of the time source whose second is `sec`. -/
def answer (sec : Fin 61) : CalAnswer :=
  { sec := sec, min := 0, hraw := 0, mday := 0, wraw := 0, mon := 0, year2 := 0, dst := false }

/-! Rows V1, V4 and V5 of 95_test_vectors, section 2. -/

def v1 : CalFields := { min := 27, hraw := 14, mday := 15, wraw := 2, mon := 3, year2 := 16, dst := false }

def v4 : CalFields := { min := 59, hraw := 21, mday := 31, wraw := 4, mon := 12, year2 := 99, dst := true }

def v5 : CalFields := { min := 8, hraw := 8, mday := 28, wraw := 0, mon := 2, year2 := 21, dst := false }

def v1Cells : List Symbol :=
  [2, 1, 1, 1, 1, 1, 1, 1, 1, 1, 1, 1, 1, 1, 1, 1, 1, 0, 1, 1]
    ++ [0, 1, 1, 1, 0, 0, 1, 0, 0, 1, 0, 1, 0, 1, 0, 1, 1, 0, 1, 0]
    ++ [1, 0, 0, 1, 0, 1, 1, 0, 0, 0, 0, 1, 1, 0, 1, 0, 0, 0, 1, 2]

def v4Cells : List Symbol :=
  [2, 1, 1, 1, 1, 1, 1, 1, 1, 1, 1, 1, 1, 1, 1, 1, 1, 1, 0, 1]
    ++ [0, 1, 0, 0, 1, 1, 0, 1, 0, 1, 1, 0, 0, 0, 1, 1, 1, 0, 0, 0]
    ++ [1, 1, 0, 0, 1, 0, 1, 0, 0, 1, 1, 0, 0, 1, 1, 0, 0, 1, 0, 2]

def v5Cells : List Symbol :=
  [2, 1, 1, 1, 1, 1, 1, 1, 1, 1, 1, 1, 1, 1, 1, 1, 1, 0, 1, 1]
    ++ [0, 0, 0, 0, 1, 0, 0, 0, 1, 1, 0, 0, 1, 0, 0, 0, 0, 0, 0, 1]
    ++ [0, 1, 1, 1, 1, 0, 1, 0, 0, 0, 1, 0, 0, 0, 0, 1, 0, 0, 0, 2]

/-- A sound core about to send cell `idx` of frame V1, or to wait after it. -/
def sending (pc : SeqCode) (idx : BitVec 6) : State :=
  { atPc pc 0 with idx := idx, frame := Frame.writeList [] 0 v1Cells }

/-! ### WellFormed: one ill-formed term for each check -/

theorem test_wf_refuses_buildframe :
    (Instr.buildFrame { v1 with min := 60 }).wellFormed = false ∧
    (Instr.buildFrame { v1 with hraw := 24 }).wellFormed = false ∧
    (Instr.buildFrame { v1 with mday := 0 }).wellFormed = false ∧
    (Instr.buildFrame { v1 with wraw := 7 }).wellFormed = false ∧
    (Instr.buildFrame { v1 with mon := 0 }).wellFormed = false ∧
    (Instr.buildFrame { v1 with mon := 13 }).wellFormed = false ∧
    (Instr.buildFrame { v1 with year2 := 100 }).wellFormed = false := by decide

theorem test_wf_refuses_groups :
    (Instr.encMin 60).wellFormed = false ∧ (Instr.encHour 24).wellFormed = false ∧
    (Instr.encDate 0 1 1 0).wellFormed = false ∧ (Instr.encDate 1 0 1 0).wellFormed = false ∧
    (Instr.encDate 1 1 0 0).wellFormed = false ∧ (Instr.encDate 1 1 13 0).wellFormed = false ∧
    (Instr.encDate 1 1 1 100).wellFormed = false := by decide

theorem test_wf_refuses_functions :
    (Instr.hrAdj 24 false).wellFormed = false ∧ (Instr.dowMap 7).wellFormed = false ∧
    (Instr.bcdU 100).wellFormed = false ∧ (Instr.bcdT 100 4).wellFormed = false ∧
    (Instr.bcdT 1 0).wellFormed = false ∧ (Instr.bcdT 1 5).wellFormed = false ∧
    (Instr.lsbF 1 0 21 .p1).wellFormed = false ∧ (Instr.lsbF 1 5 21 .p1).wellFormed = false ∧
    (Instr.lsbF 1 4 20 .p1).wellFormed = false ∧ (Instr.lsbF 1 4 25 .p1).wellFormed = false ∧
    (Instr.par .p2 28).wellFormed = false := by decide

theorem test_wf_refuses_primitives :
    (Instr.sleep 0).wellFormed = false ∧ (Instr.sleep 1000001).wellFormed = false ∧
    (Instr.pulse 3).wellFormed = false ∧ (Instr.status (.emit 0 3)).wellFormed = false ∧
    (Instr.status (.emit 60 0)).wellFormed = false := by decide

theorem test_wf_admits :
    (Instr.buildFrame v4).wellFormed = true ∧ (Instr.encDate 31 7 12 99).wellFormed = true ∧
    (Instr.lsbF 9 4 54 .p3).wellFormed = true ∧ (Instr.par .p3 58).wellFormed = true ∧
    (Instr.sleep 1000000).wellFormed = true ∧ (Instr.status (.emit 59 2)).wellFormed = true := by decide

/-! ### Decoding: codes written out from 30_encoding R50, R58, R62 and the frames of 95_test_vectors -/

theorem test_decode_symbols :
    (decode (.sym 0b00)).toOption = some .sym0 ∧ (decode (.sym 0b01)).toOption = some .sym1 ∧ (decode (.sym 0b10)).toOption = some .symN ∧
    (decode (.sym 0b11)).toOption = some .symReserved := by decide

theorem test_decode_states :
    (decode (.seq 0b0000)).toOption = some .idle ∧ (decode (.seq 0b0001)).toOption = some .acqPoll ∧
    (decode (.seq 0b0010)).toOption = some .acqWait ∧ (decode (.seq 0b0011)).toOption = some .s59Emit ∧
    (decode (.seq 0b0100)).toOption = some .s59Wait ∧ (decode (.seq 0b0101)).toOption = some .s0Emit ∧
    (decode (.seq 0b0110)).toOption = some .s0Wait ∧ (decode (.seq 0b0111)).toOption = some .build ∧
    (decode (.seq 0b1000)).toOption = some .dEmit ∧ (decode (.seq 0b1001)).toOption = some .dWait ∧
    (decode (.seq 0b1111)).toOption = some .halt := by decide

theorem test_decode_unused_states :
    (decode (.seq 0b1010)).toOption = some .seqUnused1010 ∧ (decode (.seq 0b1011)).toOption = some .seqUnused1011 ∧
    (decode (.seq 0b1100)).toOption = some .seqUnused1100 ∧ (decode (.seq 0b1101)).toOption = some .seqUnused1101 ∧
    (decode (.seq 0b1110)).toOption = some .seqUnused1110 := by decide

/-- V1 and V4: minute `1110 010 0`, hour `1100 01 1`, pair `10`. -/
theorem test_decode_groups :
    (decode (.field 21 ([1, 1, 1, 0, 0, 1, 0, 0].map some))).toOption = some (.encMin 27) ∧
    (decode (.field 29 ([1, 1, 0, 0, 0, 1, 1].map some))).toOption = some (.encHour 23) ∧
    (decode (.field 17 ([1, 0].map some))).toOption = some (.dstPair true) := by decide

/-- V4: `1000 11 001 0100 1 1001 1001 0`. -/
theorem test_decode_date :
    (decode (.field 36 ([1, 0, 0, 0, 1, 1, 0, 0, 1, 0, 1, 0, 0, 1, 1, 0, 0, 1, 1, 0, 0, 1, 0].map some))).toOption =
      some (.encDate 31 4 12 99) := by decide

/-- 95 section 3.4: `-1111111111111111..10`. -/
theorem test_decode_fixpat :
    (decode (.field 0 (some 2 :: List.replicate 16 (some 1) ++ [none, none, some 1, some 0]))).toOption = some .fixPat := by
  decide

theorem test_decode_frame_v1 : (decode (.frame v1Cells)).toOption = some (.buildFrame v1) := by decide

theorem test_decode_frame_v4 : (decode (.frame v4Cells)).toOption = some (.buildFrame v4) := by decide

theorem test_encode_frame_v5 : encode (.buildFrame v5) = some (.frame v5Cells) := by decide

/-- 30_encoding R61: both daylight cells set, a wrong parity, minute 60 (`0000 011 0`), weekday 0, a NONE in a
group, a group at no group's place, a short group. -/
theorem test_decode_rejects :
    rejected (.field 17 ([1, 1].map some)) = some .badDstPair ∧
    rejected (.field 21 ([0, 1, 1, 0, 0, 1, 0, 0].map some)) = some .badParity ∧
    rejected (.field 21 ([0, 0, 0, 0, 0, 1, 1, 0].map some)) = some .outOfRange ∧
    rejected (.field 36 ([1, 0, 0, 0, 0, 0, 0, 0, 0, 1, 0, 0, 0, 0, 0, 0, 0, 0, 0, 0, 0, 0, 0].map some)) =
      some .outOfRange ∧
    rejected (.field 29 ([2, 0, 0, 0, 0, 0, 0].map some)) = some .notABit ∧
    rejected (.field 22 ([0, 0].map some)) = some .noSuchField ∧
    rejected (.field 29 ([0, 0, 0].map some)) = some .wrongLength := by decide

theorem test_decode_rejects_frames :
    rejected (.frame (v1Cells.set 0 1)) = some .badFixedCell ∧
    rejected (.frame (v1Cells.set 20 1)) = some .badFixedCell ∧
    rejected (.frame (v1Cells.set 21 0)) = some .badParity ∧
    rejected (.frame (v1Cells.drop 1)) = some .wrongLength ∧
    rejected (.field 17 [none, some 1]) = some .unwrittenCell := by decide

/-! ### The table's words -/

/-- The words of SYM1, BUILD and of frame V1, and HALT in a whole byte. -/
theorem test_table_words :
    decodeTableWord 2 1 = some .sym1 ∧ decodeTableWord 4 7 = some .build ∧ decodeTableWord 8 15 = some .halt ∧
    decodeTableWord 8 0x27 = some (.encMin 27) ∧
    decodeTableWord 60 0x458695aa4edfffe = some (.buildFrame v1) := by decide

theorem test_table_words_refused :
    decodeTableWord 4 16 = none ∧ decodeTableWord 3 0 = none ∧ decodeTableWord 8 0x26 = none := by decide

/-- The word of frame V1, placed after reset: the next step builds that frame. -/
theorem test_fetch_word_frame :
    left (row 21 8) (step (State.reset.withFetchWord 60 0x458695aa4edfffe)) =
      some ([1, 1, 1, 0, 0, 1, 0, 0].map some) := by decide

/-- SYM1 placed after reset is sent in second 1; HALT placed is run. -/
theorem test_fetch_word_symbol :
    left (fun t => (t.pc, t.trace.length)) (step (State.reset.withFetchWord 2 1)) = some (9, 2) ∧
    left (fun t => t.pc) (step (State.reset.withFetchWord 4 15)) = some 15 := by decide

/-! ### Symbols (95 section 3.7) -/

/-- Begun at 5 s: OFF at once, ON 100,000 later. -/
theorem test_sym0 : left (fun t => t.trace) (exec .sym0 (atPc 8 5000000)) =
    some [{ time := 5000000, on := false }, { time := 5100000, on := true }] := by decide

/-- ONE with lateness 120: ON 200,120 later. -/
theorem test_sym1 :
    left (fun t => t.trace) (exec .sym1 { atPc 8 0 with env := { calm 0 with lats := [120] } }) =
      some [{ time := 0, on := false }, { time := 200120, on := true }] := by decide

theorem test_symN : left (fun t => (t.trace, t.env.now)) (exec .symN (atPc 8 7)) = some ([], 7) := by decide

theorem test_symReserved :
    left (fun t => (t.fault, t.pc, t.trace)) (exec .symReserved (atPc 8 0)) = some (4, 15, []) := by decide

theorem test_pulse : left (fun t => t.trace) (exec (.pulse 0) (atPc 8 0)) =
    some [{ time := 0, on := false }, { time := 100000, on := true }] := by decide

/-! ### The sequencer (95 section 3.8) -/

theorem test_idle_start : left (fun t => t.pc) (exec .idle (atPc 0 0)) = some 1 := by decide

theorem test_idle_stays :
    left (fun t => t.pc) (exec .idle { atPc 0 0 with env := { calm 0 with starts := [false] } }) = some 0 := by
  decide

/-- Second 59 ends acquisition. -/
theorem test_acqPoll_59 :
    left (fun t => (t.sec, t.pc)) (exec .acqPoll
      { atPc 1 3000000 with env := { calm 3000000 with calendar := [(3, answer 59)] } }) = some (59, 3) := by
  decide

/-- Second 60 does not (R156). -/
theorem test_acqPoll_60 :
    left (fun t => (t.sec, t.pc)) (exec .acqPoll
      { atPc 1 3000000 with env := { calm 3000000 with calendar := [(3, answer 60)] } }) = some (60, 2) := by
  decide

/-- W4: after 200,137 microseconds of a second the wait ends at the boundary. -/
theorem test_acqWait : left (fun t => (t.env.now, t.pc)) (exec .acqWait (atPc 2 200137)) = some (1000000, 1) := by
  decide

theorem test_s59Emit : left (fun t => (t.trace, t.pc, t.key)) (exec .s59Emit (atPc 3 0)) = some ([], 4, true) := by
  decide

/-- W1: at a boundary the wait is a whole second. -/
theorem test_s59Wait : left (fun t => (t.env.now, t.pc)) (exec .s59Wait (atPc 4 2000000)) = some (3000000, 5) := by
  decide

/-- The start second's pulse is 200,000 whatever F holds: here nothing. -/
theorem test_s0Emit : left (fun t => (t.trace, t.pc)) (exec .s0Emit (atPc 5 0)) =
    some ([{ time := 0, on := false }, { time := 200000, on := true }], 6) := by decide

/-- W6: 200,000 with lateness 350. -/
theorem test_s0Wait : left (fun t => (t.env.now, t.pc))
    (exec .s0Wait { atPc 6 200000 with env := { calm 200000 with lats := [350] } }) =
      some (1000350, 7) := by decide

/-- BUILD at second 1 asks for the instant 60 seconds later. -/
theorem test_build :
    left (fun t => (t.pc, t.idx, t.hour, row 29 7 t)) (exec .build
      { atPc 7 1000000 with env := { calm 1000000 with calendar := [(61, answerFor v1)] } }) =
      some (8, 1, 15, [1, 0, 1, 0, 1, 0, 1].map some) := by decide

/-- BUILD of a later cycle whose clock read fails: F and IDX are kept. -/
theorem test_build_fails :
    left (fun t => (t.fault, t.pc, t.idx, t.frame)) (exec .build { failing 7 with frame := [(3, 1)] }) =
      some (3, 15, 30, [(3, 1)]) := by decide

/-- IDX = 17, F[17] = 0. -/
theorem test_dEmit : left (fun t => (t.pc, t.idx, t.trace)) (exec .dEmit (sending 8 17)) =
    some (9, 17, [{ time := 0, on := false }, { time := 100000, on := true }]) := by decide

/-- F[IDX] = 11: IllegalSymbol before any key event. -/
theorem test_dEmit_illegal :
    left (fun t => (t.fault, t.pc, t.trace)) (exec .dEmit { atPc 8 0 with idx := 4, frame := [(4, 3)] }) =
      some (4, 15, []) := by decide

theorem test_dWait : left (fun t => (t.pc, t.idx)) (exec .dWait (sending 9 57)) = some (8, 58) ∧
    left (fun t => (t.pc, t.idx)) (exec .dWait (sending 9 58)) = some (3, 58) := by decide

theorem test_dWait_fails :
    left (fun t => (t.fault, t.pc, t.idx, t.env.lats)) (exec .dWait (failing 9)) = some (3, 15, 30, [0, 0]) := by
  decide

theorem test_halt : left (fun t => (t.pc, t.fault)) (exec .halt { atPc 15 0 with fault := 3 }) = some (15, 3) := by
  decide

theorem test_unused_states :
    left (fun t => t.pc) (exec .seqUnused1010 (atPc 10 0)) = some 10 ∧
    left (fun t => t.pc) (exec .seqUnused1011 (atPc 11 0)) = some 11 ∧
    left (fun t => t.pc) (exec .seqUnused1100 (atPc 12 0)) = some 12 ∧
    left (fun t => t.pc) (exec .seqUnused1101 (atPc 13 0)) = some 13 ∧
    left (fun t => t.pc) (exec .seqUnused1110 (atPc 14 0)) = some 14 := by decide

/-! ### The encoder (95 sections 2 and 3) -/

theorem test_buildFrame_v4 :
    left (agrees 0 v4Cells) (exec (.buildFrame v4) (atPc 0 0)) = some true := by decide

theorem test_buildFrame_v5 :
    left (fun t => (agrees 0 v5Cells t, t.hour, t.dow, t.p1, t.p2, t.p3)) (exec (.buildFrame v5) (atPc 0 0)) =
      some (true, 9, 7, true, false, false) := by decide

theorem test_fixPat : left (row 0 21) (exec .fixPat (atPc 0 0)) =
    some (some 2 :: List.replicate 16 (some 1) ++ [none, none, some 1, some 0]) := by decide

theorem test_dstPair : left (row 17 2) (exec (.dstPair false) (atPc 0 0)) = some [some 0, some 1] := by decide

/-- V5 (`0001 000 1`), and the out-of-range minute 60 (`0000 011 0`). -/
theorem test_encMin : left (row 21 8) (exec (.encMin 8) (atPc 0 0)) =
      some ([0, 0, 0, 1, 0, 0, 0, 1].map some) ∧
    left (row 21 8) (exec (.encMin 60) (atPc 0 0)) = some ([0, 0, 0, 0, 0, 1, 1, 0].map some) := by decide

/-- V4: hour 23, `1100 01 1`. -/
theorem test_encHour : left (row 29 7) (exec (.encHour 23) (atPc 0 0)) =
    some ([1, 1, 0, 0, 0, 1, 1].map some) := by decide

/-- V1: `1010 10 010 1100 0 0110 1000 1`. -/
theorem test_encDate : left (row 36 23) (exec (.encDate 15 2 3 16) (atPc 0 0)) =
    some ([1, 0, 1, 0, 1, 0, 0, 1, 0, 1, 1, 0, 0, 0, 0, 1, 1, 0, 1, 0, 0, 0, 1].map some) := by decide

/-- 95 section 3.1. -/
theorem test_hrAdj : left (fun t => t.hour) (exec (.hrAdj 23 true) (atPc 0 0)) = some 1 ∧
    left (fun t => t.hour) (exec (.hrAdj 22 true) (atPc 0 0)) = some 0 := by decide

/-- 95 section 3.2. -/
theorem test_dowMap : left (fun t => t.dow) (exec (.dowMap 0) (atPc 0 0)) = some 7 ∧
    left (fun t => t.dow) (exec (.dowMap 6) (atPc 0 0)) = some 6 := by decide

/-- 95 section 3.3: 59 has digits 9 and 5. -/
theorem test_bcdU : left (fun t => t.digU) (exec (.bcdU 59) (atPc 0 0)) = some 9 := by decide

theorem test_bcdT : left (fun t => t.digT) (exec (.bcdT 59 3) (atPc 0 0)) = some 5 := by decide

/-- Digit 8 is `0001`, and turns a clear accumulator to 1. -/
theorem test_lsbF : left (fun t => (row 36 4 t, t.p3)) (exec (.lsbF 8 4 36 .p3) (atPc 0 0)) =
    some ([0, 0, 0, 1].map some, true) := by decide

theorem test_par : left (row 35 1) (exec (.par .p2 35) { atPc 0 0 with p2 := true }) = some [some 1] := by decide

/-! ### Primitives -/

theorem test_clockRead : left (fun t => (t.secs, t.us)) (exec .clockRead (atPc 0 7200137)) = some (7, 200137) := by
  decide

theorem test_calendar :
    left (fun t => t.cal.toCalFields) (exec (.calendar .fields 9)
      { atPc 0 0 with env := { calm 0 with calendar := [(9, answerFor v4)] } }) = some v4 := by decide

theorem test_sleep : left (fun t => (t.env.now, t.tmr))
    (exec (.sleep 800000) { atPc 0 200000 with env := { calm 200000 with lats := [350] } }) =
      some (1000350, 0) := by decide

theorem test_keyOff : left (fun t => (t.key, t.trace)) (exec .keyOff (atPc 0 5)) =
    some (false, [{ time := 5, on := false }]) := by decide

theorem test_keyOn : left (fun t => (t.key, t.trace)) (exec .keyOn { atPc 0 5 with key := false }) =
    some (true, [{ time := 5, on := true }]) := by decide

/-- W3: at 999,999 the sleep is 1. -/
theorem test_waitB : left (fun t => (t.us, t.env.now)) (exec .waitB (atPc 0 999999)) =
    some (999999, 1000000) := by decide

theorem test_status : left (fun t => t.status) (exec (.status (.sync 58)) (atPc 0 5)) =
    some [{ time := 5, what := .sync 58 }] := by decide

/-- A second fault keeps the first code. -/
theorem test_raise :
    left (fun t => (t.fault, t.pc)) (exec (.raise .illegalSymbol) { atPc 9 0 with fault := 3 }) =
      some (3, 15) ∧
    left (fun t => (t.fault, t.pc)) (exec (.raise .hardwareUnavailable) (atPc 0 0)) = some (1, 15) := by decide

theorem test_reset :
    left (fun t => (t.pc, t.fault, t.key, t.trace))
      (exec .reset { atPc 15 5 with fault := 3, key := false }) =
      some (0, 0, true, [{ time := 5, on := true }]) := by decide

/-- 95 section 3.9: rst at 21.120000 inside the ONE pulse begun at 21.000000: ON at 21.120000, all reset. -/
theorem test_reset_inside_a_pulse :
    left (fun t => (t.pc, t.idx, t.frame, t.trace))
      (step { sending 8 21 with env := { calm 21000000 with resets := [{ rise := 21120000, hold := 50 }] } }) =
      some (0, 0, [], [{ time := 21000000, on := false }, { time := 21120000, on := true }]) := by decide

/-! ### Witnesses: a state and operands that meet the hypotheses of each statement -/

theorem witness_StepRunsDecodedState :
    decode (.seq (atPc 9 0).pc) = .ok .dWait ∧ (atPc 9 0).env.resets = [] := ⟨rfl, rfl⟩

/-- A reset that rises at the very end of the step does not cut it. -/
theorem witness_StepRunsDecodedState_later : ∃ t,
    exec .halt { atPc 15 0 with env := { calm 0 with durs := [10], resets := [{ rise := 10, hold := 1 }] } } =
      .next t ∧ t.env.now ≤ 10 ∧ 0 < 10 := ⟨_, rfl, by decide⟩

theorem witness_ResetActsInsideAStep_due :
    ({ atPc 8 7 with env := { calm 7 with resets := [{ rise := 7, hold := 1 }] } } : State).env.resets =
      [{ rise := 7, hold := 1 }] ∧ 7 ≤ (atPc 8 7).env.now := by decide

theorem witness_ResetActsInsideAStep_inside : ∃ u,
    exec (decodeSeq 5) { atPc 5 0 with env := { calm 0 with resets := [{ rise := 1, hold := 0 }] } } = .next u ∧
      0 < 1 ∧ 1 < u.env.now := ⟨_, rfl, by decide⟩

/-- The first and the last data second of a sound core. -/
theorem witness_Sound_dataSecond : Sound (sending 8 1) ∧ Sound (sending 9 58) := by
  constructor <;> constructor <;> decide

theorem witness_FrameStaysCanonical : ∃ t,
    (sending 8 1).frame.wf = true ∧ exec (.encMin 5) (sending 8 1) = .next t := ⟨_, by decide, rfl⟩

theorem witness_TimeNeverRunsBackwards : ∃ t, step (sending 9 58) = .next t := ⟨_, rfl⟩

theorem witness_DecodeOfEncodeIsIdentity :
    (Instr.buildFrame v5).wellFormed = true ∧ encode (.buildFrame v5) = some (.frame v5Cells) := by decide

theorem witness_DecodedCodesAreEncodings : decode (.frame v5Cells) = .ok (.buildFrame v5) := rfl

theorem witness_BitSymbolsMakeOnePulse :
    (Instr.pulse 1, 200000) ∈ [(Instr.sym0, 100000), (.pulse 0, 100000), (.sym1, 200000), (.pulse 1, 200000)] := by
  decide

theorem witness_NoneSymbolDoesNothing : Instr.pulse 2 ∈ [Instr.symN, .pulse 2] := by decide

theorem witness_ReservedSymbolRaisesIllegalSymbol : Instr.pulse 3 ∈ [Instr.symReserved, .pulse 3] := by decide

theorem witness_CarrierOffTimeIsNominalPlusLateness :
    (atPc 8 0).env.durs = 0 :: 0 :: 0 :: 0 :: List.replicate 8 0 ∧ (atPc 8 0).env.lats = 0 :: [0] := by decide

theorem witness_IdleWaitsForStart : ∃ t, Instr.dEmit ≠ .idle ∧ exec .dEmit (sending 8 1) = .next t :=
  ⟨_, by decide, rfl⟩

theorem witness_clock_read_succeeds_and_fails :
    (atPc 9 0).env.nextClockOk = true ∧ (failing 9).env.nextClockOk = false := by decide

theorem witness_WaitStatesReachTheBoundary :
    (Instr.s0Wait, (7 : SeqCode)) ∈ [(Instr.acqWait, (1 : SeqCode)), (.s59Wait, 5), (.s0Wait, 7)] := by decide

/-- Each symbol, at the first and the last index there is a cell for. -/
theorem witness_DataSecondSendsItsCell :
    Frame.read [(59, (0 : Symbol))] (59 : BitVec 6).toNat = some 0 ∧
    Frame.read [(59, (1 : Symbol))] (59 : BitVec 6).toNat = some 1 ∧
    Frame.read [(0, (2 : Symbol))] (0 : BitVec 6).toNat = some 2 ∧
    Frame.read [(0, (3 : Symbol))] (0 : BitVec 6).toNat = some 3 ∧ (59 : BitVec 6).toNat < 60 := by decide

theorem witness_DataSecondStopsWithoutACell :
    exec .dEmit { atPc 8 0 with idx := 60 } = .refused (.noSuchCell 60) ∧
    exec .dEmit { atPc 8 0 with idx := 59 } = .fault (.unwrittenCell 59) := ⟨rfl, rfl⟩

theorem witness_DataWaitAdvancesTheIndex :
    left (fun t => (t.idx, t.pc)) (exec .dWait { atPc 9 0 with idx := 62 }) = some (63, 8) := by decide

theorem witness_HaltChangesNothing : ∃ t,
    (atPc 15 0).pc = 15 ∧ (atPc 15 0).env.resets = [] ∧ step (atPc 15 0) = .next t := ⟨_, by decide, by decide, rfl⟩

theorem witness_UnusedStatesAreStuck : Instr.seqUnused1110 ∈
    [Instr.seqUnused1010, .seqUnused1011, .seqUnused1100, .seqUnused1101, .seqUnused1110] := by decide

theorem witness_TransitionsAreThoseOfTheTable : ∃ t, (sending 9 58).env.resets = [] ∧
    step (sending 9 58) = .next t ∧ (sending 9 58).pc ∈ legalPcs ∧ t.pc = 3 := ⟨_, by decide, rfl, by decide⟩

theorem witness_StopRequestEndsAWaitInIdle (b : Bool) :
    ({ calm 0 with stopReqs := [b] } : Env).nextClockOk = true ∧
    ({ calm 0 with stopReqs := [b] } : Env).stopReqs.head? = some b := by revert b; decide

theorem witness_NoPulseBeforeSecond59IsSeen : ∃ t, (atPc 4 0).pc.toNat ≤ 4 ∧ (atPc 4 0).env.resets = [] ∧
    step (atPc 4 0) = .next t ∧ t.pc = 5 := ⟨_, by decide, by decide, rfl, by decide⟩

theorem witness_OnlyNamedRowsWriteFrameAndIndex : ∃ t,
    exec .sym1 (sending 8 1) = .next t ∧ Instr.sym1 ≠ .reset ∧ Instr.sym1 ≠ .build ∧ Instr.sym1 ≠ .dWait :=
  ⟨_, rfl, by decide⟩

theorem witness_IdealSecondIsExact :
    (sending 8 59).idx.toNat < 60 ∧
    ({ sending 8 59 with frame := [(59, 1)] } : State).frame.read 59 = some (symOf true) ∧
    (sending 8 59).env.now = 0 * 1000000 ∧
    (sending 8 59).env.durs = List.replicate 10 0 ++ [0, 0] ∧ (sending 8 59).env.lats = 0 :: 0 :: [] ∧
    (sending 8 59).env.clockOks = true :: [true] ∧ (sending 8 59).env.resets = [] := by decide

/-- The gap second of a core whose clock can be read for a whole cycle. -/
theorem witness_OneCycleSends59Pulses :
    Sound { atPc 3 0 with env := { calm 0 with clockOks := List.replicate 61 true ++ [] } } := by
  constructor <;> decide

theorem witness_DigitIsPlacedLowBitFirst :
    ((56 : BitVec 6).toNat + (4 : BitVec 3).toNat ≤ 60) ∧ (0 : BitVec 3).toNat = 0 := by decide

theorem witness_ParityCellIsTheAccumulator : (59 : BitVec 6).toNat < 60 := by decide

theorem witness_CellsOutsideTheFrameAreRefused :
    0 < (4 : BitVec 3).toNat ∧ 60 < (57 : BitVec 6).toNat + (4 : BitVec 3).toNat ∧ 60 ≤ (60 : BitVec 6).toNat := by decide

/-- The first and the last cell of a range. -/
theorem witness_ParityCellsCoverTheirRanges : (21 ≤ 21 ∧ 21 < 21 + 7) ∧ (21 ≤ 27 ∧ 27 < 21 + 7) := by decide

/-- The top of every range. -/
theorem witness_FieldsReadBackAsEncoded :
    CalFields.inRange { min := 59, hraw := 23, mday := 31, wraw := 6, mon := 12, year2 := 99, dst := true } =
      true := by decide

theorem witness_HourWrapDoesNotCarry : ∃ t t',
    exec (.buildFrame v4) State.reset = .next t ∧
    exec (.buildFrame { v4 with hraw := 23, min := 0, dst := false }) State.reset = .next t' := ⟨_, _, rfl, rfl⟩

theorem witness_EqualOperandsGiveEqualFrames : ∃ t t',
    exec (.buildFrame v4) State.reset = .next t ∧ exec (.buildFrame v4) (sending 8 1) = .next t' ∧
    State.reset.frame.wf = true ∧ (sending 8 1).frame.wf = true := ⟨_, _, rfl, rfl, by decide⟩

theorem witness_CalendarAnswersInRange : ∃ t, exec .build (sending 7 1) = .next t := ⟨_, rfl⟩

theorem witness_KeyCallsSwitchTheCarrier :
    (Instr.keyOn, true) ∈ [(Instr.keyOff, false), (.keyOn, true)] := by decide

theorem witness_RecordedFaultIsKept : ∃ t, Instr.raise .illegalSymbol ≠ .reset ∧
    ({ atPc 9 0 with fault := 7 } : State).fault ≠ 0 ∧
    exec (.raise .illegalSymbol) { atPc 9 0 with fault := 7 } = .next t := ⟨_, by decide, by decide, rfl⟩

theorem witness_SequencerRaisesOnlyItsTwoFaults : ∃ t, (∀ x, Instr.acqWait ≠ .raise x) ∧ Instr.acqWait ≠ .reset ∧
    exec .acqWait (failing 2) = .next t := ⟨_, by simp, by decide, rfl⟩

theorem witness_WaitsSleepToTheBoundary : (atPc 9 999999).env.nextClockOk = true ∧
    (atPc 9 999999).env.durs = 0 :: 0 :: 0 :: List.replicate 9 0 ∧ (atPc 9 999999).env.lats = 0 :: [0] ∧
    Instr.dWait ∈ [Instr.acqWait, .s59Wait, .s0Wait, .dWait] := by decide

theorem witness_StartSecondIsExact :
    (atPc 5 0).env.durs = 0 :: 0 :: 0 :: 0 :: 0 :: 0 :: 0 :: List.replicate 5 0 ∧
    (atPc 5 0).env.lats = 0 :: [0] := by decide

/-- A time source whose count 0 is second 0 of minute 58, pinned down for three minutes. -/
def steady : List (Nat × CalAnswer) :=
  (List.range 180).map fun n => (n, { answer (.ofNat 61 (n % 60)) with min := .ofNat 60 (58 + n / 60) })

/-- R155's two parts: the second wraps at 59, the minute too; a time source with a second 60 is not consistent. -/
theorem test_consistent :
    ({ calm 0 with calendar := steady } : Env).consistentAt 59 = true ∧
    ({ calm 0 with calendar := [(0, answer 59), (1, answer 60), (60, answer 0)] } : Env).consistentAt 0 = false := by
  decide

/-- A poll at second 59 with a time source that is consistent for the minute that follows. -/
theorem witness_ConsistentTimeSourcePutsTheFrameOnTheMinute_poll : ∃ t,
    exec .acqPoll { atPc 1 59000000 with env := { calm 59000000 with calendar := steady } } = .next t ∧
      t.pc = 3 ∧ t.secs = 59 ∧ Env.ConsistentOn { calm 59000000 with calendar := steady } 59 60 :=
  ⟨_, rfl, by decide, by decide, by decide⟩

/-- A build in minute 59, whose minute wraps. -/
theorem witness_ConsistentTimeSourcePutsTheFrameOnTheMinute_build :
    ({ calm 61000000 with calendar := steady } : Env).nextClockOk = true ∧
    ({ calm 61000000 with calendar := steady } : Env).consistentAt (61000000 / 1000000) = true := by decide

end Sys2Proof.Tests.Slice0
end

section
/-!
The reset input and the cell fetch, case by case: what a step is while no reset touches it (70 R141), and how
a fetch from F ends (10_state R31, 20_memory R41).
-/
namespace Sys2Proof.Machine

/-- A micro-operation that goes on has a step that goes on, whatever the schedule of rst. -/
theorem step_next_of_exec {s u : State} (hu : exec (fetchInstr s) s = .next u) : ∃ t, step s = .next t := by
  simp only [step, underReset, hu]
  split
  · exact ⟨_, rfl⟩
  · split
    · exact ⟨_, rfl⟩
    · split <;> exact ⟨_, rfl⟩

/-- A pulse of rst that rises only after the step's end leaves the step as it is (R141). -/
theorem step_of_later_reset {s t : State} {r : ResetPulse} {rest : List ResetPulse}
    (hr : s.env.resets = r :: rest) (hrise : s.env.now < r.rise) (hu : exec (fetchInstr s) s = .next t)
    (hend : t.env.now ≤ r.rise) : step s = .next t := by
  simp [step, underReset, hr, hu, Nat.not_le.mpr hrise, Nat.not_lt.mpr hend]

theorem fetchSymbolThen_of_noSuchCell {s : State} (h : Config.nSym ≤ s.idx.toNat) (k : Symbol → State) :
    fetchSymbolThen k s = .refused (.noSuchCell s.idx.toNat) := if_pos h

theorem fetchSymbolThen_of_unwritten {s : State} (hi : s.idx.toNat < Config.nSym)
    (hr : s.frame.read s.idx.toNat = none) (k : Symbol → State) :
    fetchSymbolThen k s = .fault (.unwrittenCell s.idx) := by
  simp only [fetchSymbolThen, if_neg (Nat.not_le.mpr hi), hr]

theorem fetchSymbolThen_of_written {s : State} {sy : Symbol} (hi : s.idx.toNat < Config.nSym)
    (hr : s.frame.read s.idx.toNat = some sy) (k : Symbol → State) :
    fetchSymbolThen k s = .next (k sy) := by
  simp only [fetchSymbolThen, if_neg (Nat.not_le.mpr hi), hr]

/-- A clock read goes on with the clock latched, or raises (R106, R123). -/
theorem clockReadThen_cases (k : State → State) (s : State) :
    clockReadThen k s = k (clockLatched s) ∨
      clockReadThen k s = raiseFault .clockReadFailure (elapse (takeClockOk s)) := by
  cases h : s.env.nextClockOk
  · exact .inr (clockReadThen_fail h k)
  · exact .inl (clockReadThen_ok h k)

/-- WAITB goes on at the boundary, or its clock read raises (R116, R123). -/
theorem waitThen_cases (k : State → State) (s : State) :
    waitThen k s = k (waited s) ∨
      waitThen k s = raiseFault .clockReadFailure (elapse (takeClockOk s)) :=
  clockReadThen_cases _ s

end Sys2Proof.Machine
end

section
/-!
Which rows may write F, IDX and a recorded fault: by cases on the instruction, from one relation that every
operation shared by the rows keeps.
-/
namespace Sys2Proof.Machine

/-- The rows that write F: BUILD, and the encoder's rows it is made of (R36; log entry 13). -/
def writesFrame : Instr → Bool
  | .build | .buildFrame _ | .fixPat | .dstPair _ | .encMin _ | .encHour _ | .encDate _ _ _ _ => true
  | .lsbF _ _ _ _ | .par _ _ => true
  | _ => false

/-- The rows that write IDX (R18). -/
def writesIdx : Instr → Bool
  | .build | .dWait => true
  | _ => false

/-- From `s` to `t` neither F nor IDX has been written, nor a fault that `s` had recorded. -/
structure Untouched (s t : State) : Prop where
  frame : t.frame = s.frame
  idx : t.idx = s.idx
  fault : s.fault ≠ 0 → t.fault = s.fault

/-- What the row of `i` leaves of F, IDX and a recorded fault. -/
structure RowKeeps (i : Instr) (s t : State) : Prop where
  frame : writesFrame i = false → t.frame = s.frame
  idx : writesIdx i = false → t.idx = s.idx
  fault : s.fault ≠ 0 → t.fault = s.fault

theorem Untouched.rowKeeps {s t : State} (h : Untouched s t) (i : Instr) : RowKeeps i s t :=
  ⟨fun _ => h.frame, fun _ => h.idx, h.fault⟩

/-! ### The operations that the rows share -/

theorem Untouched.refl (s : State) : Untouched s s := ⟨rfl, rfl, fun _ => rfl⟩

theorem Untouched.trans {s t u : State} (h : Untouched s t) (h' : Untouched t u) : Untouched s u where
  frame := h'.frame.trans h.frame
  idx := h'.idx.trans h.idx
  fault hs := (h'.fault (h.fault hs ▸ hs)).trans (h.fault hs)

theorem untouched_of_same {s t : State} (hframe : t.frame = s.frame) (hidx : t.idx = s.idx)
    (hfault : t.fault = s.fault) : Untouched s t := ⟨hframe, hidx, fun _ => hfault⟩

theorem rowKeeps_of_same {i : Instr} {s t : State} (hframe : t.frame = s.frame) (hidx : t.idx = s.idx)
    (hfault : t.fault = s.fault) : RowKeeps i s t := (untouched_of_same hframe hidx hfault).rowKeeps i

theorem untouched_elapse (s : State) : Untouched s (elapse s) := untouched_of_same rfl rfl rfl

theorem untouched_goto (p : SeqCode) (s : State) : Untouched s (goto p s) := untouched_of_same rfl rfl rfl

theorem untouched_emitStatus (what : StatusInfo) (s : State) : Untouched s (emitStatus what s) :=
  untouched_of_same rfl rfl rfl

/-- Entering a fault keeps the code that was recorded first (R122). -/
theorem untouched_raiseFault (x : CoreFault) (s : State) : Untouched s (raiseFault x s) :=
  ⟨rfl, rfl, fun hs => by rw [raiseFault_fault, if_neg hs]⟩

theorem untouched_pulse (sy : Symbol) (s : State) : Untouched s (pulse sy s) where
  frame := pulse_frame sy s
  idx := pulse_idx sy s
  fault hs := by
    by_cases hsy : sy = Config.symReserved
    · subst hsy
      exact (untouched_raiseFault .illegalSymbol (elapse s)).fault hs
    · exact pulse_fault hsy s

theorem untouched_clockFailure (s : State) :
    Untouched s (raiseFault .clockReadFailure (elapse (takeClockOk s))) :=
  (untouched_of_same rfl rfl rfl : Untouched s (elapse (takeClockOk s))).trans (untouched_raiseFault _ _)

theorem untouched_clockReadThen {k : State → State} (hk : ∀ s, Untouched s (k s)) (s : State) :
    Untouched s (clockReadThen k s) := by
  obtain e | e := clockReadThen_cases k s
  · rw [e]
    exact (untouched_of_same (by simp) (by simp) (by simp)).trans (hk _)
  · exact e ▸ untouched_clockFailure s

theorem untouched_waitThen {k : State → State} (hk : ∀ s, Untouched s (k s)) (s : State) :
    Untouched s (waitThen k s) :=
  untouched_clockReadThen (fun s => (untouched_of_same rfl rfl rfl : Untouched s (sleepFor _ s)).trans (hk _)) s

theorem untouched_pollStep (s : State) : Untouched s (pollStep s) :=
  untouched_of_same (pollStep_frame s) (pollStep_idx s) (pollStep_fault s)

theorem untouched_emitStep (sy : Symbol) (s : State) : Untouched s (emitStep sy s) := by
  unfold emitStep
  split
  · exact (untouched_elapse s).trans (untouched_raiseFault _ _)
  · exact (untouched_emitStatus _ s).trans ((untouched_pulse sy _).trans (untouched_goto _ _))

/-- An emission outside the data seconds (R91, R93). -/
theorem untouched_emission (what : StatusInfo) (sy : Symbol) (p : SeqCode) (s : State) :
    Untouched s (goto p (pulse sy (emitStatus what s))) :=
  (untouched_emitStatus what s).trans ((untouched_pulse sy _).trans (untouched_goto p _))

/-! ### The rows that write -/

/-- An encoder row writes F, and neither IDX nor FAULT. -/
theorem rowKeeps_of_encoder {i : Instr} {s t : State} (hi : writesFrame i = true) (hidx : t.idx = s.idx)
    (hfault : t.fault = s.fault) : RowKeeps i s t :=
  ⟨fun hn => absurd (hi.symm.trans hn) (by decide), fun _ => hidx, fun _ => hfault⟩

theorem rowKeeps_build (s : State) : RowKeeps .build s (clockReadThen buildStep s) where
  frame hn := absurd hn (by decide)
  idx hn := absurd hn (by decide)
  fault hs := by
    obtain e | e := clockReadThen_cases buildStep s
    · rw [e, buildStep_fault, clockLatched_fault]
    · exact e ▸ (untouched_clockFailure s).fault hs

@[simp] theorem advanceStep_frame (s : State) : (advanceStep s).frame = s.frame := by
  unfold advanceStep
  split <;> rfl

@[simp] theorem advanceStep_fault (s : State) : (advanceStep s).fault = s.fault := by
  unfold advanceStep
  split <;> rfl

theorem rowKeeps_dWait (s : State) : RowKeeps .dWait s (waitThen advanceStep s) := by
  obtain e | e := waitThen_cases advanceStep s
  · rw [e]
    exact ⟨fun _ => by simp, fun hn => absurd hn (by decide), fun _ => by simp⟩
  · exact e ▸ (untouched_clockFailure s).rowKeeps _

@[simp] theorem placed_idx (bits : List Bool) (lo : Nat) (p : ParSel) (s : State) :
    (placed bits lo p s).idx = s.idx := by simp [placed]

@[simp] theorem placed_fault (bits : List Bool) (lo : Nat) (p : ParSel) (s : State) :
    (placed bits lo p s).fault = s.fault := by simp [placed]

/-! ### Every row -/

/-- Reset apart, every row keeps what it is not named to write: R18, R23 and R36 by cases on the row. -/
theorem exec_rowKeeps {i : Instr} {s t : State} (hi : i ≠ .reset) (h : exec i s = .next t) :
    RowKeeps i s t := by
  cases i with
  | sym0 =>
    obtain rfl := Host.Outcome.next.inj h
    exact (untouched_pulse _ s).rowKeeps _
  | sym1 =>
    obtain rfl := Host.Outcome.next.inj h
    exact (untouched_pulse _ s).rowKeeps _
  | symN =>
    obtain rfl := Host.Outcome.next.inj h
    exact (untouched_pulse _ s).rowKeeps _
  | symReserved =>
    obtain rfl := Host.Outcome.next.inj h
    exact (untouched_pulse _ s).rowKeeps _
  | pulse sy =>
    obtain rfl := Host.Outcome.next.inj h
    exact (untouched_pulse sy s).rowKeeps _
  | idle =>
    obtain rfl := Host.Outcome.next.inj h
    exact rowKeeps_of_same rfl rfl rfl
  | acqPoll =>
    obtain rfl := Host.Outcome.next.inj h
    exact (untouched_clockReadThen untouched_pollStep s).rowKeeps _
  | acqWait =>
    obtain rfl := Host.Outcome.next.inj h
    exact (untouched_waitThen (untouched_goto _) s).rowKeeps _
  | s59Emit =>
    obtain rfl := Host.Outcome.next.inj h
    exact (untouched_emission _ _ _ s).rowKeeps _
  | s59Wait =>
    obtain rfl := Host.Outcome.next.inj h
    exact (untouched_waitThen (untouched_goto _) s).rowKeeps _
  | s0Emit =>
    obtain rfl := Host.Outcome.next.inj h
    exact (untouched_emission _ _ _ s).rowKeeps _
  | s0Wait =>
    obtain rfl := Host.Outcome.next.inj h
    exact (untouched_waitThen (untouched_goto _) s).rowKeeps _
  | build =>
    obtain rfl := Host.Outcome.next.inj h
    exact rowKeeps_build s
  | dEmit =>
    obtain ⟨sy, -, -, rfl⟩ := fetchSymbolThen_cases h
    exact (untouched_emitStep sy s).rowKeeps _
  | dWait =>
    obtain rfl := Host.Outcome.next.inj h
    exact rowKeeps_dWait s
  | halt =>
    obtain rfl := Host.Outcome.next.inj h
    exact rowKeeps_of_same rfl rfl rfl
  | seqUnused1010 =>
    obtain rfl := Host.Outcome.next.inj h
    exact (untouched_elapse s).rowKeeps _
  | seqUnused1011 =>
    obtain rfl := Host.Outcome.next.inj h
    exact (untouched_elapse s).rowKeeps _
  | seqUnused1100 =>
    obtain rfl := Host.Outcome.next.inj h
    exact (untouched_elapse s).rowKeeps _
  | seqUnused1101 =>
    obtain rfl := Host.Outcome.next.inj h
    exact (untouched_elapse s).rowKeeps _
  | seqUnused1110 =>
    obtain rfl := Host.Outcome.next.inj h
    exact (untouched_elapse s).rowKeeps _
  | buildFrame c =>
    obtain rfl : elapse (assembleFrame Config.preamble c s) = t := Host.Outcome.next.inj h
    exact rowKeeps_of_encoder rfl (by simp) (by simp)
  | fixPat =>
    obtain rfl : elapse (fixPattern Config.preamble s) = t := Host.Outcome.next.inj h
    exact rowKeeps_of_encoder rfl (by simp) (by simp)
  | dstPair d =>
    obtain rfl := Host.Outcome.next.inj h
    exact rowKeeps_of_encoder rfl rfl rfl
  | encMin m =>
    obtain rfl : elapse (encodeMinute m s) = t := Host.Outcome.next.inj h
    exact rowKeeps_of_encoder rfl (by simp [encodeMinute_eq]) (by simp [encodeMinute_eq])
  | encHour m =>
    obtain rfl : elapse (encodeHour m s) = t := Host.Outcome.next.inj h
    exact rowKeeps_of_encoder rfl (by simp [encodeHour_eq]) (by simp [encodeHour_eq])
  | encDate a b c d =>
    obtain rfl : elapse (encodeDate a b c d s) = t := Host.Outcome.next.inj h
    exact rowKeeps_of_encoder rfl (by simp [encodeDate_eq]) (by simp [encodeDate_eq])
  | lsbF g w lo p =>
    simp only [exec, execLsbF] at h
    split at h
    · cases h
    · obtain rfl := Host.Outcome.next.inj h
      exact rowKeeps_of_encoder rfl (by simp [lsbf_eq]) (by simp [lsbf_eq])
  | par p pi =>
    simp only [exec, execPar] at h
    split at h
    · cases h
    · obtain rfl := Host.Outcome.next.inj h
      exact rowKeeps_of_encoder rfl rfl rfl
  | hrAdj a b =>
    obtain rfl := Host.Outcome.next.inj h
    exact rowKeeps_of_same rfl rfl rfl
  | dowMap a =>
    obtain rfl := Host.Outcome.next.inj h
    exact rowKeeps_of_same rfl rfl rfl
  | bcdU a =>
    obtain rfl := Host.Outcome.next.inj h
    exact rowKeeps_of_same rfl rfl rfl
  | bcdT a b =>
    obtain rfl := Host.Outcome.next.inj h
    exact rowKeeps_of_same rfl rfl rfl
  | clockRead =>
    obtain rfl := Host.Outcome.next.inj h
    exact (untouched_clockReadThen Untouched.refl s).rowKeeps _
  | calendar d n =>
    obtain rfl := Host.Outcome.next.inj h
    exact rowKeeps_of_same (by simp) (by simp) (by simp)
  | sleep d =>
    obtain rfl := Host.Outcome.next.inj h
    exact rowKeeps_of_same rfl rfl rfl
  | keyOff =>
    obtain rfl := Host.Outcome.next.inj h
    exact rowKeeps_of_same rfl rfl rfl
  | keyOn =>
    obtain rfl := Host.Outcome.next.inj h
    exact rowKeeps_of_same rfl rfl rfl
  | waitB =>
    obtain rfl := Host.Outcome.next.inj h
    exact (untouched_waitThen Untouched.refl s).rowKeeps _
  | status what =>
    obtain rfl := Host.Outcome.next.inj h
    exact (untouched_emitStatus what s).rowKeeps _
  | raise x =>
    obtain rfl := Host.Outcome.next.inj h
    exact ((untouched_raiseFault x s).trans (untouched_elapse _)).rowKeeps _
  | reset => exact absurd rfl hi

end Sys2Proof.Machine
end

section
/-!
What a sound run keeps while no fault is recorded, one lemma an operation, and from it that every
micro-operation of a sound state ends in a sound state.
-/
namespace Sys2Proof.Safety

open Sys2Proof.Machine

/-- The part of `Sound` about the registers other than PC and IDX, in a core that has recorded no fault. -/
structure Running (s : State) : Prop where
  frameCanonical : s.frame.wf = true
  carrierOn : s.key = true
  traceAgrees : keyAfter true s.trace = true
  timerIdle : s.tmr = 0
  noFault : s.fault = 0

/-- What `Sound` asks of IDX and F in the data seconds. -/
def FitToSend (s : State) : Prop := 1 ≤ s.idx.toNat ∧ s.idx.toNat ≤ 58 ∧ Transmittable s.frame

/-- The states of the sequencer outside the data seconds, HALT apart. -/
abbrev OutsideDataSeconds (p : SeqCode) : Prop :=
  p ∈ legalPcs ∧ p ≠ Config.pcHalt ∧ p ≠ Config.pcDEmit ∧ p ≠ Config.pcDWait

/-! ### Between Sound and Running -/

theorem Sound.running {s : State} (h : Sound s) (hpc : s.pc ≠ Config.pcHalt) : Running s where
  frameCanonical := h.frameCanonical
  carrierOn := h.carrierOn
  traceAgrees := h.traceAgrees.trans h.carrierOn
  timerIdle := h.timerIdle
  noFault := not_not.mp (mt h.haltedIffFaulted.mpr hpc)

/-- The environment does not matter for `Sound`. -/
theorem Sound.withEnv {s : State} (h : Sound s) (e : Env) : Sound { s with env := e } :=
  ⟨h.frameCanonical, h.pcLegal, h.carrierOn, h.traceAgrees, h.timerIdle, h.faultCoded, h.haltedIffFaulted,
    h.dataPhase⟩

/-- A running core at a state other than HALT is sound if IDX and F are fit to send where they are sent. -/
theorem Running.sound {s : State} (h : Running s) (hpc : s.pc ∈ legalPcs) (hne : s.pc ≠ Config.pcHalt)
    (hd : s.pc = Config.pcDEmit ∨ s.pc = Config.pcDWait → FitToSend s) : Sound s where
  frameCanonical := h.frameCanonical
  pcLegal := hpc
  carrierOn := h.carrierOn
  traceAgrees := h.traceAgrees.trans h.carrierOn.symm
  timerIdle := h.timerIdle
  faultCoded := by simp [h.noFault]
  haltedIffFaulted := iff_of_false hne (not_not.mpr h.noFault)
  dataPhase := hd

theorem Running.sound_of_outside {s : State} (h : Running s) (hpc : OutsideDataSeconds s.pc) : Sound s := by
  obtain ⟨hlegal, hne, hdata⟩ := hpc
  exact h.sound hlegal hne fun hd => absurd hd (not_or.mpr hdata)

theorem Running.sound_of_data {s : State} (h : Running s) (hpc : s.pc = Config.pcDEmit ∨ s.pc = Config.pcDWait)
    (hfit : FitToSend s) : Sound s := by
  refine h.sound ?_ ?_ fun _ => hfit
  · obtain hp | hp := hpc <;> rw [hp] <;> decide
  · obtain hp | hp := hpc <;> rw [hp] <;> decide

theorem faultCode_toNat_le (x : CoreFault) : (faultCode x).toNat ≤ 4 := by cases x <;> decide

theorem faultCode_ne_zero (x : CoreFault) : faultCode x ≠ 0 := by cases x <;> decide

/-- A running core that enters a fault is sound: halted, with the code recorded (R122). -/
theorem Running.sound_raiseFault {s : State} (h : Running s) (x : CoreFault) : Sound (raiseFault x s) where
  frameCanonical := h.frameCanonical
  pcLegal := by rw [raiseFault_pc]; decide
  carrierOn := h.carrierOn
  traceAgrees := h.traceAgrees.trans h.carrierOn.symm
  timerIdle := h.timerIdle
  faultCoded := by simpa [h.noFault] using faultCode_toNat_le x
  haltedIffFaulted := by
    rw [raiseFault_fault, if_pos h.noFault]
    exact iff_of_true rfl (faultCode_ne_zero x)
  dataPhase := by
    rw [raiseFault_pc]
    exact fun hd => absurd hd (by decide)

/-! ### What keeps a core running -/

/-- `Running` speaks of five registers. -/
theorem Running.congr {s t : State} (h : Running s) (hframe : t.frame = s.frame) (hkey : t.key = s.key)
    (htrace : t.trace = s.trace) (htmr : t.tmr = s.tmr) (hfault : t.fault = s.fault) : Running t :=
  ⟨hframe ▸ h.frameCanonical, hkey ▸ h.carrierOn, htrace ▸ h.traceAgrees, htmr ▸ h.timerIdle,
    hfault ▸ h.noFault⟩

theorem Running.elapse {s : State} (h : Running s) : Running (elapse s) := h.congr rfl rfl rfl rfl rfl

theorem Running.takeStart {s : State} (h : Running s) : Running (takeStart s) := h.congr rfl rfl rfl rfl rfl

theorem Running.takeClockOk {s : State} (h : Running s) : Running (takeClockOk s) :=
  h.congr rfl rfl rfl rfl rfl

theorem Running.emitStatus {s : State} (h : Running s) (what : StatusInfo) : Running (emitStatus what s) :=
  h.congr rfl rfl rfl rfl rfl

theorem Running.clockLatched {s : State} (h : Running s) : Running (clockLatched s) := by
  apply h.congr <;> simp

theorem Running.waited {s : State} (h : Running s) : Running (waited s) := by
  apply h.congr <;> simp [h.timerIdle]

theorem Running.pollStep {s : State} (h : Running s) : Running (pollStep s) := by
  apply h.congr <;> simp

theorem pulse_key_of_on {s : State} (h : s.key = true) (sy : Symbol) : (pulse sy s).key = true := by
  unfold pulse
  split_ifs <;> simp [h]

theorem pulse_tmr_of_idle {s : State} (h : s.tmr = 0) (sy : Symbol) : (pulse sy s).tmr = 0 := by
  unfold pulse
  split_ifs <;> simp [h]

/-- What KEY was and the events since give what it is. -/
theorem keyAfter_trace_of_keyLogged {s t : State} (h : KeyLogged s t) (hs : keyAfter true s.trace = s.key) :
    keyAfter true t.trace = t.key := by
  obtain ⟨evs, htrace, hkey⟩ := h
  rw [htrace, keyAfter_append, hs, hkey]

/-- A symbol that is not reserved leaves the carrier on and no sleep running (R112 to R114). -/
theorem Running.pulse {s : State} (h : Running s) {sy : Symbol} (hsy : sy ≠ Config.symReserved) :
    Running (pulse sy s) where
  frameCanonical := by rw [pulse_frame]; exact h.frameCanonical
  carrierOn := pulse_key_of_on h.carrierOn sy
  traceAgrees := (keyAfter_trace_of_keyLogged (keyLogged_pulse sy s)
    (h.traceAgrees.trans h.carrierOn.symm)).trans (pulse_key_of_on h.carrierOn sy)
  timerIdle := pulse_tmr_of_idle h.timerIdle sy
  noFault := (pulse_fault hsy s).trans h.noFault

theorem Running.buildStep {s : State} (h : Running s) : Running (buildStep s) where
  frameCanonical := by
    rw [buildStep_frame]
    exact wf_assembleFrame _ _ (by simpa using h.frameCanonical)
  carrierOn := by rw [buildStep_key]; exact h.carrierOn
  traceAgrees := by rw [buildStep_trace]; exact h.traceAgrees
  timerIdle := by rw [buildStep_tmr]; exact h.timerIdle
  noFault := by rw [buildStep_fault]; exact h.noFault

/-! ### The frame that BUILD leaves -/

/-- Between cells 0 and 59 a built frame is 58 bits (R52, R57). -/
theorem frameCells_eq_bits (c : CalFields) : ∃ bits : List Bool, bits.length = 58 ∧
    frameCells Config.preamble c = Config.f0Sym :: (bits.map symOf ++ [Config.f59Sym]) := by
  have hpre : preambleCells Config.preamble = (List.replicate 16 true).map symOf := by decide
  refine ⟨List.replicate 16 true ++ ([c.dst, !c.dst] ++ ([true, false] ++
    ((twoDigits 3 c.min.toNat ++ [xorAll (twoDigits 3 c.min.toNat)]) ++
    ((twoDigits 2 (codedHour c.hraw.toNat c.dst) ++ [xorAll (twoDigits 2 (codedHour c.hraw.toNat c.dst))]) ++
    (dateBits c.mday.toNat (codedDow c.wraw.toNat) c.mon.toNat c.year2.toNat ++
      [xorAll (dateBits c.mday.toNat (codedDow c.wraw.toNat) c.mon.toNat c.year2.toNat)]))))),
    by simp [dateBits], ?_⟩
  simp only [frameCells, hpre, minuteCells, hourCells, dateCells, groupCells, dstCells, dateBits,
    List.map_append, List.map_cons, List.map_nil, List.append_assoc, List.cons_append, List.nil_append]
  rfl

theorem transmittable_assembleFrame (c : CalFields) (s : State) :
    Transmittable (assembleFrame Config.preamble c s).frame := by
  intro i hi h1
  obtain ⟨bits, hlen, hcells⟩ := frameCells_eq_bits c
  obtain ⟨k, rfl⟩ : ∃ k, i = k + 1 := ⟨i - 1, by omega⟩
  have hk : k < bits.length := by omega
  rw [read_assembleFrame _ _ _ (by show k + 1 < 60; omega), hcells, List.getElem?_cons_succ,
    List.getElem?_append_left (by simpa using hk), List.getElem?_map, List.getElem?_eq_getElem hk]
  cases bits[k]
  · exact .inl rfl
  · exact .inr rfl

theorem fitToSend_buildStep (s : State) : FitToSend (buildStep s) := by
  refine ⟨by simp, by simp, ?_⟩
  rw [buildStep_frame]
  exact transmittable_assembleFrame _ _

/-! ### The micro-operations of a sound state -/

/-- The write of PC that ends a step keeps the core running (R99). -/
theorem Running.goto {s : State} (h : Running s) (p : SeqCode) : Running (goto p s) :=
  h.congr rfl rfl rfl rfl rfl

theorem Running.sound_goto {s : State} (h : Running s) {p : SeqCode} (hp : OutsideDataSeconds p) :
    Sound (Machine.goto p s) := (h.goto p).sound_of_outside hp

/-- A clock read that fails halts a running core (R123). -/
theorem Running.sound_clockReadThen {k : State → State} {s : State} (h : Running s)
    (hk : Sound (k (Machine.clockLatched s))) : Sound (clockReadThen k s) := by
  obtain e | e := clockReadThen_cases k s
  · exact e ▸ hk
  · exact e ▸ h.takeClockOk.elapse.sound_raiseFault _

/-- A wait state, for this hardware without a stop input (R104). -/
theorem Running.sound_waitStep {k : State → State} {s : State} (h : Running s)
    (hk : Sound (k (Machine.waited s))) : Sound (waitStep Config.hasStop k s) := by
  rw [waitStep_noStop]
  exact h.sound_clockReadThen hk

theorem Running.sound_idle {s : State} (h : Running s) : ∃ t, exec .idle s = .next t ∧ Sound t := by
  refine ⟨_, rfl, ?_⟩
  cases s.env.nextStart
  · exact h.takeStart.sound_goto (by decide)
  · exact h.takeStart.sound_goto (by decide)

theorem Running.sound_acqPoll {s : State} (h : Running s) : ∃ t, exec .acqPoll s = .next t ∧ Sound t := by
  refine ⟨_, rfl, h.sound_clockReadThen (h.clockLatched.pollStep.sound_of_outside ?_)⟩
  rw [pollStep_pc]
  split <;> decide

theorem Running.sound_acqWait {s : State} (h : Running s) : ∃ t, exec .acqWait s = .next t ∧ Sound t :=
  ⟨_, rfl, h.sound_waitStep (h.waited.sound_goto (by decide))⟩

theorem Running.sound_s59Emit {s : State} (h : Running s) : ∃ t, exec .s59Emit s = .next t ∧ Sound t :=
  ⟨_, rfl, ((h.emitStatus _).pulse (by decide)).sound_goto (by decide)⟩

theorem Running.sound_s59Wait {s : State} (h : Running s) : ∃ t, exec .s59Wait s = .next t ∧ Sound t :=
  ⟨_, rfl, h.sound_waitStep (h.waited.sound_goto (by decide))⟩

theorem Running.sound_s0Emit {s : State} (h : Running s) : ∃ t, exec .s0Emit s = .next t ∧ Sound t :=
  ⟨_, rfl, ((h.emitStatus _).pulse (by decide)).sound_goto (by decide)⟩

theorem Running.sound_s0Wait {s : State} (h : Running s) : ∃ t, exec .s0Wait s = .next t ∧ Sound t :=
  ⟨_, rfl, h.sound_waitStep (h.waited.sound_goto (by decide))⟩

theorem Running.sound_build {s : State} (h : Running s) : ∃ t, exec .build s = .next t ∧ Sound t := by
  refine ⟨_, rfl, h.sound_clockReadThen ?_⟩
  exact h.clockLatched.buildStep.sound_of_data (.inl (buildStep_pc _)) (fitToSend_buildStep _)

/-- D_EMIT finds a ZERO or a ONE in a cell of F: it neither stops nor raises (R31, R96, R124). -/
theorem Running.sound_dEmit {s : State} (h : Running s) (hfit : FitToSend s) :
    ∃ t, exec .dEmit s = .next t ∧ Sound t := by
  obtain ⟨hlo, hhi, hframe⟩ := hfit
  obtain ⟨sy, hread, hsy⟩ : ∃ sy, s.frame.read s.idx.toNat = some sy ∧ sy ≠ Config.symReserved := by
    obtain hr | hr := hframe s.idx.toNat (by omega) hlo
    · exact ⟨_, hr, by decide⟩
    · exact ⟨_, hr, by decide⟩
  refine ⟨_, fetchSymbolThen_of_written (by show s.idx.toNat < 60; omega) hread _, ?_⟩
  rw [emitStep, if_neg hsy]
  refine (((h.emitStatus _).pulse hsy).goto _).sound_of_data (.inr rfl) ?_
  simpa [FitToSend] using ⟨hlo, hhi, hframe⟩

/-- D_WAIT stays inside 1..58: at 58 the cycle starts again, below it IDX goes up by one (R97). -/
theorem Running.sound_advanceStep {s : State} (h : Running s) (hfit : FitToSend s) : Sound (advanceStep s) := by
  obtain ⟨hlo, hhi, hframe⟩ := hfit
  unfold advanceStep
  split
  · exact h.sound_goto (by decide)
  · rename_i hne
    have hrun : Running (Machine.goto Config.pcDEmit { s with idx := nextIdx s.idx }) :=
      h.congr rfl rfl rfl rfl rfl
    have hlt : s.idx.toNat ≠ 58 := fun e => hne (BitVec.eq_of_toNat_eq e)
    have h63 : s.idx ≠ 63 := by rintro e; rw [e] at hhi; exact absurd hhi (by decide)
    have hnext : (nextIdx s.idx).toNat = s.idx.toNat + 1 := by
      rw [nextIdx, if_neg h63, BitVec.toNat_add]
      show (s.idx.toNat + 1) % 64 = _
      omega
    refine hrun.sound_of_data (.inl rfl) ⟨?_, ?_, hframe⟩
    · rw [goto_idx, hnext]; omega
    · rw [goto_idx, hnext]; omega

theorem Running.sound_dWait {s : State} (h : Running s) (hfit : FitToSend s) :
    ∃ t, exec .dWait s = .next t ∧ Sound t :=
  ⟨_, rfl, h.sound_waitStep (h.waited.sound_advanceStep (by simpa [FitToSend] using hfit))⟩

theorem Sound.halt {s : State} (h : Sound s) (hpc : s.pc = Config.pcHalt) :
    ∃ t, exec .halt s = .next t ∧ Sound t := by
  refine ⟨_, rfl, Sound.withEnv ?_ _⟩
  rw [← hpc]
  exact h

/-- The micro-operation of a sound state goes on to a sound state: one case a value of PC (R17). -/
theorem Sound.exec {s : State} (h : Sound s) : ∃ t, exec (fetchInstr s) s = .next t ∧ Sound t := by
  have hlegal := h.pcLegal
  simp only [legalPcs, List.mem_cons, List.not_mem_nil, or_false] at hlegal
  have hrun : s.pc ≠ Config.pcHalt → Running s := h.running
  have hfit : s.pc = Config.pcDEmit ∨ s.pc = Config.pcDWait → FitToSend s := h.dataPhase
  unfold fetchInstr
  obtain hpc | hpc | hpc | hpc | hpc | hpc | hpc | hpc | hpc | hpc | hpc := hlegal <;>
    rw [hpc] at hrun hfit ⊢
  · exact (hrun (by decide)).sound_idle
  · exact (hrun (by decide)).sound_acqPoll
  · exact (hrun (by decide)).sound_acqWait
  · exact (hrun (by decide)).sound_s59Emit
  · exact (hrun (by decide)).sound_s59Wait
  · exact (hrun (by decide)).sound_s0Emit
  · exact (hrun (by decide)).sound_s0Wait
  · exact (hrun (by decide)).sound_build
  · exact (hrun (by decide)).sound_dEmit (hfit (.inl rfl))
  · exact (hrun (by decide)).sound_dWait (hfit (.inr rfl))
  · exact h.halt hpc

/-! ### Reset -/

/-- Reset gives a sound state, from any state whose trace leads to its KEY (R141, R143). -/
theorem sound_resetCore {s : State} (h : keyAfter true s.trace = s.key) : Sound (resetCore s) := by
  have htrace : keyAfter true (resetCore s).trace = true := keyAfter_trace_of_keyLogged (keyLogged_resetCore s) h
  have hrun : Running (resetCore s) := ⟨rfl, rfl, htrace, rfl, rfl⟩
  exact hrun.sound_of_outside (show OutsideDataSeconds Config.pcIdle by decide)

theorem sound_resetBy {s : State} (h : keyAfter true s.trace = s.key) (r : ResetPulse)
    (rest : List ResetPulse) : Sound (resetBy r rest s) :=
  (sound_resetCore (s := { s with env := { s.env with now := max s.env.now r.rise, resets := rest } }) h).withEnv _

/-- Cut short, a step leaves a trace that leads to the KEY of that moment (R141). -/
theorem keyAfter_trace_cutAt {s : State} (h : keyAfter true s.trace = s.key) (w : Nat) (t : State) :
    keyAfter true (cutAt w s t).trace = (cutAt w s t).key := by
  simp only [cutAt, keyAfter_append, h]

end Sys2Proof.Safety
end

section
/-! The statements about the state: its soundness, the writers of its registers, reset and the step. -/
namespace Sys2Proof.Safety

open Sys2Proof.Machine

/-- Settles O6: the micro-operation of a sound state goes on soundly, and a reset before it or inside it acts on
a trace that agrees with KEY. -/
theorem soundnessKeptByEveryStep : Obligations.SoundnessKeptByEveryStep := by
  intro s h
  obtain ⟨u, hu, hsound⟩ := h.exec
  obtain ⟨t, ht⟩ := step_next_of_exec hu
  refine ⟨t, ht, ?_⟩
  obtain ⟨he, -⟩ | ⟨r, rest, -, -, rfl⟩ | ⟨r, rest, v, -, -, -, -, rfl⟩ := step_cases ht
  · obtain rfl := Host.Outcome.next.inj (hu.symm.trans he)
    exact hsound
  · exact sound_resetBy h.traceAgrees r rest
  · exact sound_resetBy (keyAfter_trace_cutAt h.traceAgrees r.rise v) r rest

/-- Settles O30: F and IDX of a row that is not one of their writers, from `exec_rowKeeps`. -/
theorem onlyNamedRowsWriteFrameAndIndex : Obligations.OnlyNamedRowsWriteFrameAndIndex := by
  intro i s t h hreset
  have hkeeps := exec_rowKeeps hreset h
  constructor
  · rintro ⟨hbuildFrame, hfixPat, hdstPair, hencMin, hencHour, hencDate, hlsbF, hpar, hbuild⟩ a
    have hw : writesFrame i = false := by
      unfold writesFrame
      split
      · exact absurd rfl hbuild
      · exact absurd rfl (hbuildFrame _)
      · exact absurd rfl hfixPat
      · exact absurd rfl (hdstPair _)
      · exact absurd rfl (hencMin _)
      · exact absurd rfl (hencHour _)
      · exact absurd rfl (hencDate _ _ _ _)
      · exact absurd rfl (hlsbF _ _ _ _)
      · exact absurd rfl (hpar _ _)
      · rfl
    rw [hkeeps.frame hw]
  · intro hbuild hdWait
    have hw : writesIdx i = false := by
      unfold writesIdx
      split
      · exact absurd rfl hbuild
      · exact absurd rfl hdWait
      · rfl
    exact hkeeps.idx hw

/-- Settles O56: a row that raises keeps the code recorded first, and no other row writes FAULT. -/
theorem recordedFaultIsKept : Obligations.RecordedFaultIsKept :=
  fun _ _ _ hreset hfault h => (exec_rowKeeps hreset h).fault hfault

/-- Settles O1: the reset state writes out R30's values, and its F lists no cell. -/
theorem resetLeavesStatedValues : Obligations.ResetLeavesStatedValues :=
  ⟨rfl, rfl, rfl, rfl, rfl, fun _ => rfl⟩

/-- Settles O3: by the two laws of the step under a schedule that does not touch it. -/
theorem stepRunsDecodedState : Obligations.StepRunsDecodedState := by
  intro s i hdec
  obtain rfl : fetchInstr s = i := Except.ok.inj ((decode_seq s.pc).symm.trans hdec)
  exact ⟨step_of_no_reset, fun r rest t hr hrise hu hend => step_of_later_reset hr hrise hu hend⟩

/-- Settles O5: the reset state is what reset makes of itself. -/
theorem soundAtReset : Obligations.SoundAtReset :=
  show Sound (resetCore State.reset) from sound_resetCore rfl

/-- Settles O23: D_EMIT is its fetch, and the fetch has no cell to read. -/
theorem dataSecondStopsWithoutACell : Obligations.DataSecondStopsWithoutACell :=
  fun _ => ⟨fun h => fetchSymbolThen_of_noSuchCell h _, fun hi hr => fetchSymbolThen_of_unwritten hi hr _⟩

end Sys2Proof.Safety
end

section
/-!
Which writes of the encoder keep F in canonical form: each of its operations writes only cells 0 to 59, and the
rows that take the cell as an operand refuse the others (20_memory R34, R41).
-/
namespace Sys2Proof.Machine

/-! ### The rows that name a cell: LSBF and PAR -/

/-- LSBF of at least one bit that would run past cell 59 is refused, by the last cell it names. -/
theorem exec_lsbF_of_noSuchCell {w : BitVec 3} {lo : BitVec 6} (hw : 0 < w.toNat)
    (hlo : Config.nSym < lo.toNat + w.toNat) (g : BitVec 4) (p : ParSel) (s : State) :
    exec (.lsbF g w lo p) s = .refused (.noSuchCell (lo.toNat + w.toNat - 1)) := if_pos ⟨hw, hlo⟩

theorem exec_par_of_noSuchCell {pi : BitVec 6} (h : Config.nSym ≤ pi.toNat) (p : ParSel) (s : State) :
    exec (.par p pi) s = .refused (.noSuchCell pi.toNat) := if_pos h

/-- An LSBF that goes on places no bit at all, or ends inside the frame. -/
theorem exec_lsbF_cases {g : BitVec 4} {w : BitVec 3} {lo : BitVec 6} {p : ParSel} {s t : State}
    (h : exec (.lsbF g w lo p) s = .next t) :
    (w.toNat = 0 ∨ lo.toNat + w.toNat ≤ Config.nSym) ∧ t = elapse (lsbf g w.toNat lo.toNat p s) := by
  by_cases hc : 0 < w.toNat ∧ Config.nSym < lo.toNat + w.toNat
  · rw [exec_lsbF_of_noSuchCell hc.1 hc.2] at h
    cases h
  · exact ⟨by omega, (Host.Outcome.next.inj ((if_neg hc).symm.trans h)).symm⟩

/-- A PAR that goes on names a cell of the frame. -/
theorem exec_par_cases {p : ParSel} {pi : BitVec 6} {s t : State} (h : exec (.par p pi) s = .next t) :
    pi.toNat < Config.nSym ∧ t = elapse (parityCell p pi.toNat s) := by
  by_cases hc : Config.nSym ≤ pi.toNat
  · rw [exec_par_of_noSuchCell hc] at h
    cases h
  · exact ⟨Nat.lt_of_not_le hc, (Host.Outcome.next.inj ((if_neg hc).symm.trans h)).symm⟩

/-! ### The encoder's operations keep the canonical form (R34) -/

theorem wf_elapse {s : State} (h : s.frame.wf = true) : (elapse s).frame.wf = true := h

theorem wf_dstPair (dst : Bool) {s : State} (h : s.frame.wf = true) : (dstPair dst s).frame.wf = true := by
  rw [dstPair_eq]
  exact Frame.wf_writeList (by simp [Config.nSym]) h

theorem wf_encodeMinute (min : BitVec 6) {s : State} (h : s.frame.wf = true) :
    (encodeMinute min s).frame.wf = true := by
  rw [encodeMinute_eq]
  exact Frame.wf_writeList (by simp [Config.nSym]) h

theorem wf_encodeHour (hour : BitVec 5) {s : State} (h : s.frame.wf = true) :
    (encodeHour hour s).frame.wf = true := by
  rw [encodeHour_eq]
  exact Frame.wf_writeList (by simp [Config.nSym]) h

theorem wf_encodeDate (mday : BitVec 5) (dow : BitVec 3) (mon : BitVec 4) (year2 : BitVec 7) {s : State}
    (h : s.frame.wf = true) : (encodeDate mday dow mon year2 s).frame.wf = true := by
  rw [encodeDate_eq]
  dsimp only
  exact Frame.wf_writeList (by simp [Config.nSym]) h

/-- LSBF of no bits writes nothing, wherever it points. -/
theorem wf_lsbf {w lo : Nat} (hlo : w = 0 ∨ lo + w ≤ Config.nSym) (g : BitVec 4) (p : ParSel) {s : State}
    (h : s.frame.wf = true) : (lsbf g w lo p s).frame.wf = true := by
  obtain rfl | hlo := hlo
  · exact h
  · rw [lsbf_eq]
    exact wf_placed (by rwa [digitBits_length]) p h

theorem wf_buildStep {s : State} (h : s.frame.wf = true) : (buildStep s).frame.wf = true := by
  rw [buildStep_frame]
  exact wf_assembleFrame _ _ (by simpa using h)

/-- BUILD assembles a frame, or its clock read fails and F stays (R95, R123). -/
theorem wf_build {s : State} (h : s.frame.wf = true) : (clockReadThen buildStep s).frame.wf = true := by
  obtain e | e := clockReadThen_cases buildStep s
  · rw [e]
    exact wf_buildStep (by simpa using h)
  · rw [e, (untouched_clockFailure s).frame]
    exact h

/-- The rows that write F keep its canonical form: one case a row. -/
theorem wf_exec_of_writesFrame {i : Instr} {s t : State} (hi : writesFrame i = true) (hs : s.frame.wf = true)
    (h : exec i s = .next t) : t.frame.wf = true := by
  cases i with
  | build =>
    obtain rfl := Host.Outcome.next.inj h
    exact wf_build hs
  | buildFrame c =>
    obtain rfl := Host.Outcome.next.inj h
    exact wf_elapse (wf_assembleFrame _ c hs)
  | fixPat =>
    obtain rfl := Host.Outcome.next.inj h
    exact wf_elapse (wf_fixPattern _ hs)
  | dstPair dst =>
    obtain rfl := Host.Outcome.next.inj h
    exact wf_elapse (wf_dstPair dst hs)
  | encMin min =>
    obtain rfl := Host.Outcome.next.inj h
    exact wf_elapse (wf_encodeMinute min hs)
  | encHour hour =>
    obtain rfl := Host.Outcome.next.inj h
    exact wf_elapse (wf_encodeHour hour hs)
  | encDate mday dow mon year2 =>
    obtain rfl := Host.Outcome.next.inj h
    exact wf_elapse (wf_encodeDate mday dow mon year2 hs)
  | lsbF g w lo p =>
    obtain ⟨hlo, rfl⟩ := exec_lsbF_cases h
    exact wf_elapse (wf_lsbf hlo g p hs)
  | par p pi =>
    obtain ⟨hpi, rfl⟩ := exec_par_cases h
    exact Frame.wf_write _ hpi hs
  | _ => exact absurd hi Bool.false_ne_true

end Sys2Proof.Machine
end

section
/-! The statements about the cells of F (20_memory). -/
namespace Sys2Proof.Safety

open Sys2Proof.Machine

/-- Settles O7: a row that is no writer of F leaves it alone, reset leaves it empty, and every writer stays inside
cells 0 to 59. -/
theorem frameStaysCanonical : Obligations.FrameStaysCanonical := by
  intro i s t hs h
  by_cases hreset : i = .reset
  · subst hreset
    obtain rfl := Host.Outcome.next.inj h
    exact reset_frame_wf
  · cases hw : writesFrame i
    · rw [(exec_rowKeeps hreset h).frame hw]
      exact hs
    · exact wf_exec_of_writesFrame hw hs h

/-- Settles O38: LSBF and PAR are refused by their bounds check. -/
theorem cellsOutsideTheFrameAreRefused : Obligations.CellsOutsideTheFrameAreRefused :=
  ⟨fun s g _ _ p hw hlo => exec_lsbF_of_noSuchCell hw hlo g p s, fun s p _ h => exec_par_of_noSuchCell h p s⟩

end Sys2Proof.Safety
end

section
/-!
The codes read back (30_encoding R49 to R62): each reader of Decode accepts exactly what its writer writes, so an
instruction and its stored code determine one another.
-/
namespace Sys2Proof

open Machine (dateBits)

/-! ### Readers in sequence -/

theorem except_bind_eq_ok_iff {ε α β : Type} {x : Except ε α} {f : α → Except ε β} {b : β} :
    (x >>= f) = .ok b ↔ ∃ a, x = .ok a ∧ f a = .ok b := by
  cases x with
  | error e => simp [bind, Except.bind]
  | ok a => simp [bind, Except.bind]

/-- A check that rejects lets through exactly the codes that meet it. -/
theorem except_unless_eq_ok_iff {ε α : Type} {p : Prop} [Decidable p] {e : ε} {k : PUnit → Except ε α}
    {a : α} :
    (if ¬p then (do let r ← throw e; k r) else k ()) = .ok a ↔ p ∧ k () = .ok a := by
  by_cases hp : p
  · simp [hp]
  · simp [hp, throw, throwThe, MonadExceptOf.throw, bind, Except.bind]

/-- A list is cut into its parts one after the other. -/
theorem eq_append_iff_take_drop {α : Type} {l xs ys : List α} :
    l = xs ++ ys ↔ l.take xs.length = xs ∧ l.drop xs.length = ys := by
  constructor
  · rintro rfl
    exact ⟨List.take_left, List.drop_left⟩
  · rintro ⟨htake, hdrop⟩
    rw [← htake, ← hdrop]
    simp

/-! ### Bits and digits (R12, R53) -/

theorem valueOf_lt (bits : List Bool) : valueOf bits < 2 ^ bits.length := by
  induction bits with
  | nil => simp [valueOf]
  | cons b bits ih =>
    have := b.toNat_le
    rw [valueOf, List.length_cons, Nat.pow_succ]
    omega

theorem digitBits_valueOf (bits : List Bool) : digitBits bits.length (valueOf bits) = bits := by
  induction bits with
  | nil => rfl
  | cons b bits ih =>
    have hhalf : (b.toNat + 2 * valueOf bits) / 2 = valueOf bits := by have := b.toNat_lt; omega
    have hlow : ((b.toNat + 2 * valueOf bits) % 2 == 1) = b := by cases b <;> simp
    rw [valueOf, List.length_cons, digitBits, hhalf, hlow, ih]

/-- `w` bits read as `v` exactly if they are the `w` low bits of `v`, and `v` fits. -/
theorem valueOf_eq_iff {w v : Nat} {bits : List Bool} (hw : bits.length = w) :
    valueOf bits = v ↔ bits = digitBits w v ∧ v < 2 ^ w := by
  subst hw
  constructor
  · rintro rfl
    exact ⟨(digitBits_valueOf bits).symm, valueOf_lt bits⟩
  · rintro ⟨hbits, hv⟩
    rw [hbits, valueOf_digitBits, Nat.mod_eq_of_lt hv]

theorem bitOf_eq_some_iff {s : Symbol} {b : Bool} : bitOf s = some b ↔ s = symOf b := by
  revert s b; decide

theorem bitsOf_eq_some_iff {cells : List Symbol} {bits : List Bool} :
    bitsOf cells = some bits ↔ cells = bits.map symOf := by
  constructor
  · intro h
    induction cells generalizing bits with
    | nil =>
      obtain rfl : [] = bits := Option.some.inj h
      rfl
    | cons s cells ih =>
      unfold bitsOf at h
      split at h
      · rename_i b bs hb hbs
        obtain rfl := Option.some.inj h
        rw [bitOf_eq_some_iff.1 hb, ih hbs, List.map_cons]
      · cases h
  · rintro rfl
    exact bitsOf_map_symOf bits

theorem writtenCells_eq_some_iff {cells : List (Option Symbol)} {cs : List Symbol} :
    writtenCells cells = some cs ↔ cells = cs.map some := by
  constructor
  · intro h
    induction cells generalizing cs with
    | nil =>
      obtain rfl : [] = cs := Option.some.inj h
      rfl
    | cons c cells ih =>
      unfold writtenCells at h
      split at h
      · rename_i s ss hss
        obtain rfl := Option.some.inj h
        rw [ih hss, List.map_cons]
      · cases h
  · rintro rfl
    exact writtenCells_map_some cs

/-! ### The readers of the groups -/

/-- The parity cell is the one value that makes the exclusive-or 0 (R56). -/
theorem xorAll_eq_false_iff {n : Nat} {bits : List Bool} (hn : bits.length = n + 1) :
    xorAll bits = false ↔ bits = bits.take n ++ [xorAll (bits.take n)] := by
  obtain ⟨xs, b, rfl⟩ := List.eq_nil_or_concat' bits |>.resolve_left (by rintro rfl; simp at hn)
  obtain rfl : xs.length = n := by simpa using hn
  rw [List.take_left, xorAll_append]
  cases hx : xorAll xs <;> cases b <;> simp [xorAll]

theorem readGroup_eq_ok_iff {n : Nat} {cells : List Symbol} {bits : List Bool} :
    readGroup n cells = .ok bits ↔ bits.length = n ∧ cells = groupCells bits := by
  constructor
  · intro h
    unfold readGroup at h
    split at h
    · cases h
    · rename_i all hall
      split at h
      · cases h
      · rename_i hlen
        have hlen : all.length = n + 1 := not_not.1 hlen
        split at h
        · cases h
        · rename_i hxor
          obtain rfl : all.take n = bits := Except.ok.inj h
          have hall := bitsOf_eq_some_iff.1 hall
          rw [(xorAll_eq_false_iff hlen).1 (Bool.eq_false_of_not_eq_true hxor)] at hall
          exact ⟨by simp [hlen], hall⟩
  · rintro ⟨rfl, rfl⟩
    simp [readGroup, groupCells, -List.map_append, xorAll_with_parity]

theorem checkRange_eq_ok_iff {lo hi v v' : Nat} :
    checkRange lo hi v = .ok v' ↔ v = v' ∧ lo ≤ v' ∧ v' ≤ hi := by
  unfold checkRange
  split
  · simp only [Except.ok.injEq]
    omega
  · simp only [reduceCtorEq, false_iff]
    omega

/-- The two digits at `lo` read as `v` exactly if they are those of `v`, and `v` fits (R53, R61). -/
theorem readTwoDigits_eq_ok_iff {w lo v : Nat} {bits : List Bool} (hlen : lo + (4 + w) ≤ bits.length) :
    readTwoDigits w lo bits = .ok v ↔
      (bits.drop lo).take (4 + w) = twoDigits w v ∧ v / 10 < 2 ^ w ∧ v ≤ 99 := by
  have hunits := valueOf_eq_iff (v := v % 10) (show ((bits.drop lo).take 4).length = 4 by simp; omega)
  have htens := valueOf_eq_iff (v := v / 10) (show ((bits.drop (lo + 4)).take w).length = w by simp; omega)
  have hsplit : (bits.drop lo).take (4 + w) = twoDigits w v ↔
      (bits.drop lo).take 4 = digitBits 4 (v % 10) ∧ (bits.drop (lo + 4)).take w = digitBits w (v / 10) := by
    rw [List.take_add, List.drop_drop, twoDigits]
    exact ⟨fun h => List.append_inj h (by simp; omega), fun h => by rw [h.1, h.2]⟩
  have hread : readTwoDigits w lo bits = .ok v ↔
      valueOf ((bits.drop lo).take 4) = v % 10 ∧ valueOf ((bits.drop (lo + 4)).take w) = v / 10 ∧ v ≤ 99 := by
    unfold readTwoDigits
    dsimp only
    split
    · simp only [Except.ok.injEq]
      omega
    · simp only [reduceCtorEq, false_iff]
      omega
  have hdecimal : v % 10 < 2 ^ 4 := by omega
  rw [hread, hunits, htens, hsplit]
  tauto

/-- A group of one number is read exactly if its cells are those of the number, and the number is in range (R61). -/
theorem readNumber_eq_ok_iff {w hi v : Nat} (hfits : hi / 10 < 2 ^ w) (hhi : hi ≤ 99) {cells : List Symbol} :
    (do
      let bits ← readGroup (4 + w) cells
      let v ← readTwoDigits w 0 bits
      checkRange 0 hi v) = .ok v ↔ cells = groupCells (twoDigits w v) ∧ v ≤ hi := by
  simp only [except_bind_eq_ok_iff, readGroup_eq_ok_iff, checkRange_eq_ok_iff]
  constructor
  · rintro ⟨bits, ⟨hlen, rfl⟩, _, hread, rfl, -, hv⟩
    obtain ⟨hbits, -, -⟩ := (readTwoDigits_eq_ok_iff (by omega)).1 hread
    rw [List.drop_zero, List.take_of_length_le hlen.le] at hbits
    exact ⟨by rw [hbits], hv⟩
  · rintro ⟨rfl, hv⟩
    have hlen : (twoDigits w v).length = 4 + w := by rw [twoDigits_length, Nat.add_comm]
    have hv10 : v / 10 < 2 ^ w := (Nat.div_le_div_right hv).trans_lt hfits
    have hread : readTwoDigits w 0 (twoDigits w v) = .ok v :=
      (readTwoDigits_eq_ok_iff (by omega)).2 ⟨List.take_of_length_le hlen.le, hv10, hv.trans hhi⟩
    exact ⟨_, ⟨hlen, rfl⟩, v, hread, rfl, Nat.zero_le v, hv⟩

theorem readMinute_eq_ok_iff {cells : List Symbol} {min : Nat} :
    readMinute cells = .ok min ↔ cells = minuteCells min ∧ min ≤ 59 :=
  readNumber_eq_ok_iff (w := 3) (by decide) (by decide)

theorem readHour_eq_ok_iff {cells : List Symbol} {hour : Nat} :
    readHour cells = .ok hour ↔ cells = hourCells hour ∧ hour ≤ 23 :=
  readNumber_eq_ok_iff (w := 2) (by decide) (by decide)

/-- The numbers of a date group that R61 admits. -/
structure DateInRange (mday dow mon year2 : Nat) : Prop where
  mday : 1 ≤ mday ∧ mday ≤ 31
  dow : 1 ≤ dow ∧ dow ≤ 7
  mon : 1 ≤ mon ∧ mon ≤ 12
  year2 : year2 ≤ 99

/-- The parts of the 22 bits under the date parity (R77). -/
theorem eq_dateBits_iff {bits : List Bool} (hlen : bits.length = 22) {mday dow mon year2 : Nat} :
    bits = dateBits mday dow mon year2 ↔
      bits.take 6 = twoDigits 2 mday ∧ (bits.drop 6).take 3 = digitBits 3 dow ∧
      (bits.drop 9).take 5 = twoDigits 1 mon ∧ (bits.drop 14).take 8 = twoDigits 4 year2 := by
  rw [dateBits, eq_append_iff_take_drop, eq_append_iff_take_drop, eq_append_iff_take_drop,
    List.take_of_length_le (show (bits.drop 14).length ≤ 8 by simp; omega)]
  simp

theorem readDate_eq_ok_iff {cells : List Symbol} {mday dow mon year2 : Nat} :
    readDate cells = .ok (mday, dow, mon, year2) ↔
      cells = dateCells mday dow mon year2 ∧ DateInRange mday dow mon year2 := by
  have hcells : dateCells mday dow mon year2 = groupCells (dateBits mday dow mon year2) := rfl
  simp only [readDate, except_bind_eq_ok_iff, readGroup_eq_ok_iff, checkRange_eq_ok_iff, pure, Except.pure,
    Except.ok.injEq, Prod.mk.injEq, hcells]
  constructor
  · rintro ⟨bits, ⟨hlen, rfl⟩, _, hmday, _, ⟨rfl, hmday'⟩, _, ⟨hdow, hdow'⟩, _, hmon, _, ⟨rfl, hmon'⟩,
      _, hyear2, _, ⟨rfl, hyear2'⟩, rfl, rfl, rfl, rfl⟩
    obtain ⟨hdow, -⟩ := (valueOf_eq_iff (w := 3) (by simp; omega)).1 hdow
    obtain ⟨hmday, -⟩ := (readTwoDigits_eq_ok_iff (by omega)).1 hmday
    obtain ⟨hmon, -⟩ := (readTwoDigits_eq_ok_iff (by omega)).1 hmon
    obtain ⟨hyear2, -⟩ := (readTwoDigits_eq_ok_iff (by omega)).1 hyear2
    exact ⟨congrArg groupCells ((eq_dateBits_iff hlen).2 ⟨hmday, hdow, hmon, hyear2⟩),
      hmday', hdow', hmon', hyear2'.2⟩
  · rintro ⟨rfl, hmday', hdow', hmon', hyear2'⟩
    obtain ⟨bits, hbits⟩ : ∃ bits, bits = dateBits mday dow mon year2 := ⟨_, rfl⟩
    have hlen : bits.length = 22 := by rw [hbits]; simp [dateBits]
    obtain ⟨hmday, hdow, hmon, hyear2⟩ := (eq_dateBits_iff hlen).1 hbits
    have hmday : readTwoDigits 2 0 bits = .ok mday :=
      (readTwoDigits_eq_ok_iff (by omega)).2 ⟨hmday, by omega, by omega⟩
    have hdow : valueOf ((bits.drop 6).take 3) = dow := (valueOf_eq_iff (by simp; omega)).2 ⟨hdow, by omega⟩
    have hmon : readTwoDigits 1 9 bits = .ok mon :=
      (readTwoDigits_eq_ok_iff (by omega)).2 ⟨hmon, by omega, by omega⟩
    have hyear2 : readTwoDigits 4 14 bits = .ok year2 :=
      (readTwoDigits_eq_ok_iff (by omega)).2 ⟨hyear2, by omega, hyear2'⟩
    exact ⟨bits, ⟨hlen, by rw [hbits]⟩, _, hmday, _, ⟨rfl, hmday'⟩, _, ⟨hdow, hdow'⟩, _, hmon, _,
      ⟨rfl, hmon'⟩, _, hyear2, _, ⟨rfl, Nat.zero_le _, hyear2'⟩, rfl, rfl, rfl, rfl⟩

theorem readDst_eq_ok_iff {cells : List Symbol} {dst : Bool} :
    readDst cells = .ok dst ↔ cells = dstCells dst := by
  constructor
  · intro h
    unfold readDst at h
    split at h
    · obtain rfl := Except.ok.inj h
      assumption
    · split at h
      · obtain rfl := Except.ok.inj h
        assumption
      · cases h
  · rintro rfl
    cases dst <;> rfl

/-! ### The frame (R51, R52) -/

/-- The operands that give a frame these coded values: what BUILDFRAME's code decodes to. -/
def calOfCoded (dst : Bool) (min hour mday dow mon year2 : Nat) : CalFields :=
  { min := .ofNat 6 min, hraw := .ofNat 5 (rawHour hour dst), mday := .ofNat 5 mday,
    wraw := .ofNat 3 (rawDow dow), mon := .ofNat 4 mon, year2 := .ofNat 7 year2, dst := dst }

/-- The 60 cells of a frame by the values they code, the hour and the weekday as they are sent (R52). -/
def codedCells (pre : Nat → Symbol) (dst : Bool) (min hour mday dow mon year2 : Nat) : List Symbol :=
  (Config.f0Sym :: preambleCells pre) ++ (dstCells dst ++ ([pre 19, Config.bit20] ++ (minuteCells min ++
    (hourCells hour ++ (dateCells mday dow mon year2 ++ [Config.f59Sym])))))

theorem frameCells_eq_codedCells (pre : Nat → Symbol) (c : CalFields) :
    frameCells pre c = codedCells pre c.dst c.min.toNat (codedHour c.hraw.toNat c.dst) c.mday.toNat
      (codedDow c.wraw.toNat) c.mon.toNat c.year2.toNat := rfl

/-- The parts of a frame, at the places R52 gives them. -/
theorem eq_codedCells_iff {pre : Nat → Symbol} {cells : List Symbol} {dst : Bool}
    {min hour mday dow mon year2 : Nat} :
    cells = codedCells pre dst min hour mday dow mon year2 ↔
      cells.take 17 = Config.f0Sym :: preambleCells pre ∧ (cells.drop 17).take 2 = dstCells dst ∧
      (cells.drop 19).take 2 = [pre 19, Config.bit20] ∧ (cells.drop 21).take 8 = minuteCells min ∧
      (cells.drop 29).take 7 = hourCells hour ∧ (cells.drop 36).take 23 = dateCells mday dow mon year2 ∧
      cells.drop 59 = [Config.f59Sym] := by
  simp only [codedCells, eq_append_iff_take_drop, List.drop_drop, List.length_cons, List.length_nil,
    preambleCells_length, dstCells_length, minuteCells_length, hourCells_length, dateCells_length, Nat.reduceAdd]

/-- What the readers of a frame accept, before the coded hour and weekday are taken back to the raw ones. -/
theorem decodeFrame_eq_ok_iff_coded {cells : List Symbol} {i : Instr} :
    decodeFrame cells = .ok i ↔ ∃ dst min hour mday dow mon year2,
      cells = codedCells Config.preamble dst min hour mday dow mon year2 ∧ min ≤ 59 ∧ hour ≤ 23 ∧
      DateInRange mday dow mon year2 ∧ i = .buildFrame (calOfCoded dst min hour mday dow mon year2) := by
  simp only [decodeFrame, except_unless_eq_ok_iff, except_bind_eq_ok_iff, readDst_eq_ok_iff, readMinute_eq_ok_iff,
    readHour_eq_ok_iff, Prod.exists, readDate_eq_ok_iff, pure, Except.pure, Except.ok.injEq]
  constructor
  · rintro ⟨-, hpre, dst, hdst, hfix, min, ⟨hmin, hmin'⟩, hour, ⟨hhour, hhour'⟩, mday, dow, mon, year2,
      ⟨hdate, hdate'⟩, hlast, rfl⟩
    exact ⟨dst, min, hour, mday, dow, mon, year2,
      eq_codedCells_iff.2 ⟨hpre, hdst, hfix, hmin, hhour, hdate, hlast⟩, hmin', hhour', hdate', rfl⟩
  · rintro ⟨dst, min, hour, mday, dow, mon, year2, hcells, hmin', hhour', hdate', rfl⟩
    obtain ⟨hpre, hdst, hfix, hmin, hhour, hdate, hlast⟩ := eq_codedCells_iff.1 hcells
    have hlen : cells.length = Config.nSym := by rw [hcells]; simp [codedCells]
    exact ⟨hlen, hpre, dst, hdst, hfix, min, ⟨hmin, hmin'⟩, hour, ⟨hhour, hhour'⟩, mday, dow, mon, year2,
      ⟨hdate, hdate'⟩, hlast, rfl⟩

/-! The coded hour and weekday determine the raw ones (R67, R68). -/

theorem codedHour_eq (hraw : Nat) (dst : Bool) : codedHour hraw dst = (hraw + 1 + dst.toNat) % 24 := by
  cases dst <;> rfl

theorem rawHour_eq (hour : Nat) (dst : Bool) : rawHour hour dst = (hour + (23 - dst.toNat)) % 24 := by
  cases dst <;> rfl

theorem codedHour_le (hraw : Nat) (dst : Bool) : codedHour hraw dst ≤ 23 := by
  rw [codedHour_eq]
  omega

theorem rawHour_le (hour : Nat) (dst : Bool) : rawHour hour dst ≤ 23 := by
  rw [rawHour_eq]
  omega

theorem codedHour_rawHour {hour : Nat} (h : hour ≤ 23) (dst : Bool) : codedHour (rawHour hour dst) dst = hour := by
  have := dst.toNat_le
  rw [codedHour_eq, rawHour_eq]
  omega

theorem rawHour_codedHour {hraw : Nat} (h : hraw ≤ 23) (dst : Bool) : rawHour (codedHour hraw dst) dst = hraw := by
  have := dst.toNat_le
  rw [codedHour_eq, rawHour_eq]
  omega

theorem codedDow_bounds {wraw : Nat} (h : wraw ≤ 6) : 1 ≤ codedDow wraw ∧ codedDow wraw ≤ 7 := by
  interval_cases wraw <;> decide

theorem rawDow_le {dow : Nat} (h : dow ≤ 7) : rawDow dow ≤ 6 := by
  interval_cases dow <;> decide

theorem codedDow_rawDow {dow : Nat} (hlo : 1 ≤ dow) (hhi : dow ≤ 7) : codedDow (rawDow dow) = dow := by
  interval_cases dow <;> rfl

theorem rawDow_codedDow {wraw : Nat} (h : wraw ≤ 6) : rawDow (codedDow wraw) = wraw := by
  interval_cases wraw <;> rfl

theorem inRange_iff {c : CalFields} :
    c.inRange = true ↔ c.min.toNat ≤ 59 ∧ c.hraw.toNat ≤ 23 ∧ 1 ≤ c.mday.toNat ∧ c.wraw.toNat ≤ 6 ∧
      (1 ≤ c.mon.toNat ∧ c.mon.toNat ≤ 12) ∧ c.year2.toNat ≤ 99 := by
  simp only [CalFields.inRange, Bool.and_eq_true, decide_eq_true_eq, and_assoc]

/-- A frame that decodes is the frame of operands in range, and decodes to them (R61). -/
theorem decodeFrame_eq_ok_iff {cells : List Symbol} {i : Instr} :
    decodeFrame cells = .ok i ↔
      ∃ c : CalFields, c.inRange = true ∧ cells = frameCells Config.preamble c ∧ i = .buildFrame c := by
  rw [decodeFrame_eq_ok_iff_coded]
  constructor
  · rintro ⟨dst, min, hour, mday, dow, mon, year2, rfl, hmin, hhour, ⟨hmday, hdow, hmon, hyear2⟩, rfl⟩
    have hraw := rawHour_le hour dst
    have hwraw := rawDow_le hdow.2
    refine ⟨_, inRange_iff.2 ?_, ?_, rfl⟩
    · simp (disch := omega) only [calOfCoded, BitVec.toNat_ofNat, Nat.mod_eq_of_lt]
      exact ⟨hmin, hraw, hmday.1, hwraw, hmon, hyear2⟩
    · simp (disch := omega) only [frameCells_eq_codedCells, calOfCoded, BitVec.toNat_ofNat, Nat.mod_eq_of_lt,
        codedHour_rawHour, codedDow_rawDow]
  · rintro ⟨c, hc, rfl, rfl⟩
    obtain ⟨hmin, hhraw, hmday, hwraw, hmon, hyear2⟩ := inRange_iff.1 hc
    refine ⟨_, _, _, _, _, _, _, frameCells_eq_codedCells Config.preamble c, hmin, codedHour_le _ _,
      ⟨⟨hmday, by omega⟩, codedDow_bounds hwraw, hmon, hyear2⟩, ?_⟩
    simp only [calOfCoded, rawHour_codedHour hhraw, rawDow_codedDow hwraw, BitVec.ofNat_toNat, BitVec.setWidth_eq]

/-! ### The field groups -/

theorem decodeField_fixPat {cells : List (Option Symbol)} {i : Instr} :
    decodeField 0 cells = .ok i ↔ cells = fixCells Config.preamble ∧ i = .fixPat := by
  unfold decodeField
  rw [if_pos rfl]
  split
  · simp [*, eq_comm]
  · simp [*]

/-- Beyond FIXPAT's group every cell has to be written (R31). -/
theorem decodeField_eq_ok_iff_written {lo : Nat} (hlo : lo ≠ 0) {cells : List (Option Symbol)} {i : Instr} :
    decodeField lo cells = .ok i ↔
      ∃ cs : List Symbol, cells = cs.map some ∧ decodeField lo (cs.map some) = .ok i := by
  constructor
  · intro h
    cases hw : writtenCells cells with
    | none => simp [decodeField, hlo, hw] at h
    | some cs =>
      obtain rfl := writtenCells_eq_some_iff.1 hw
      exact ⟨cs, rfl, h⟩
  · rintro ⟨cs, rfl, h⟩
    exact h

/-- A field group whose reader accepts exactly the cells of a value in its range decodes by that value. -/
theorem decodeField_eq_ok_iff {α : Type} {lo : Nat} {read : List Symbol → Except DecodeErr α} {mk : α → Instr}
    {cellsOf : α → List Symbol} {ok : α → Prop} (hlo : lo ≠ 0)
    (hdecode : ∀ cs : List Symbol, decodeField lo (cs.map some) = read cs >>= fun v => .ok (mk v))
    (hread : ∀ {cs v}, read cs = .ok v ↔ cs = cellsOf v ∧ ok v) {cells : List (Option Symbol)} {i : Instr} :
    decodeField lo cells = .ok i ↔ ∃ v, cells = (cellsOf v).map some ∧ ok v ∧ i = mk v := by
  simp only [decodeField_eq_ok_iff_written hlo, hdecode, except_bind_eq_ok_iff, hread, Except.ok.injEq]
  constructor
  · rintro ⟨_, rfl, v, ⟨rfl, hv⟩, rfl⟩
    exact ⟨v, rfl, hv, rfl⟩
  · rintro ⟨v, rfl, hv, rfl⟩
    exact ⟨_, rfl, v, ⟨rfl, hv⟩, rfl⟩

theorem decodeField_dstPair {cells : List (Option Symbol)} {i : Instr} :
    decodeField 17 cells = .ok i ↔ ∃ dst, cells = (dstCells dst).map some ∧ i = .dstPair dst := by
  simpa only [true_and] using decodeField_eq_ok_iff (read := readDst) (ok := fun _ => True) (by decide)
    (fun cs => by simp [decodeField, pure, Except.pure]) (by simp [readDst_eq_ok_iff])

theorem decodeField_encMin {cells : List (Option Symbol)} {i : Instr} :
    decodeField 21 cells = .ok i ↔
      ∃ min, cells = (minuteCells min).map some ∧ min ≤ 59 ∧ i = .encMin (.ofNat 6 min) :=
  decodeField_eq_ok_iff (by decide) (fun cs => by simp [decodeField, pure, Except.pure]) readMinute_eq_ok_iff

theorem decodeField_encHour {cells : List (Option Symbol)} {i : Instr} :
    decodeField 29 cells = .ok i ↔
      ∃ hour, cells = (hourCells hour).map some ∧ hour ≤ 23 ∧ i = .encHour (.ofNat 5 hour) :=
  decodeField_eq_ok_iff (by decide) (fun cs => by simp [decodeField, pure, Except.pure]) readHour_eq_ok_iff

theorem decodeField_encDate {cells : List (Option Symbol)} {i : Instr} :
    decodeField 36 cells = .ok i ↔ ∃ mday dow mon year2, cells = (dateCells mday dow mon year2).map some ∧
      DateInRange mday dow mon year2 ∧
      i = .encDate (.ofNat 5 mday) (.ofNat 3 dow) (.ofNat 4 mon) (.ofNat 7 year2) := by
  simpa only [Prod.exists] using decodeField_eq_ok_iff (read := readDate)
    (mk := fun v => .encDate (.ofNat 5 v.1) (.ofNat 3 v.2.1) (.ofNat 4 v.2.2.1) (.ofNat 7 v.2.2.2))
    (by decide) (fun cs => by simp [decodeField, pure, Except.pure]) readDate_eq_ok_iff

/-- The place of a field group is one of the five of the table's FIELD rows. -/
theorem lo_of_decodeField {lo : Nat} {cells : List (Option Symbol)} {i : Instr} (h : decodeField lo cells = .ok i) :
    lo = 0 ∨ lo = 17 ∨ lo = 21 ∨ lo = 29 ∨ lo = 36 := by
  by_contra hlo
  simp only [not_or] at hlo
  obtain ⟨h0, h17, h21, h29, h36⟩ := hlo
  obtain ⟨cs, -, h⟩ := (decodeField_eq_ok_iff_written h0).1 h
  simp [decodeField, h0, h17, h21, h29, h36] at h

/-! ### Every code -/

/-- The code of a well-formed instruction decodes to it: one case a row that has a code. -/
theorem decode_encode {i : Instr} {c : Code} (hwf : i.wellFormed = true) (h : encode i = some c) :
    decode c = .ok i := by
  cases i with
  | buildFrame cal =>
    obtain rfl := Option.some.inj h
    exact decodeFrame_eq_ok_iff.2 ⟨cal, hwf, rfl, rfl⟩
  | fixPat =>
    obtain rfl := Option.some.inj h
    exact decodeField_fixPat.2 ⟨rfl, rfl⟩
  | dstPair dst =>
    obtain rfl := Option.some.inj h
    exact decodeField_dstPair.2 ⟨dst, rfl, rfl⟩
  | encMin min =>
    obtain rfl := Option.some.inj h
    exact decodeField_encMin.2 ⟨min.toNat, rfl, by simpa [Instr.wellFormed] using hwf, by simp⟩
  | encHour hour =>
    obtain rfl := Option.some.inj h
    exact decodeField_encHour.2 ⟨hour.toNat, rfl, by simpa [Instr.wellFormed] using hwf, by simp⟩
  | encDate mday dow mon year2 =>
    obtain rfl := Option.some.inj h
    simp only [Instr.wellFormed, Bool.and_eq_true, decide_eq_true_eq] at hwf
    obtain ⟨⟨⟨hmday, hdow⟩, hmon⟩, hyear2⟩ := hwf
    exact decodeField_encDate.2 ⟨mday.toNat, dow.toNat, mon.toNat, year2.toNat, rfl,
      ⟨⟨hmday, by omega⟩, ⟨hdow, by omega⟩, hmon, hyear2⟩, by simp⟩
  | sym0 | sym1 | symN | symReserved | idle | acqPoll | acqWait | s59Emit | s59Wait | s0Emit | s0Wait | build
  | dEmit | dWait | halt | seqUnused1010 | seqUnused1011 | seqUnused1100 | seqUnused1101 | seqUnused1110 =>
    obtain rfl := Option.some.inj h
    rfl
  | _ => cases h

theorem encode_decodeSym (b : Symbol) :
    encode (decodeSym b) = some (.sym b) ∧ (decodeSym b).wellFormed = true := by
  revert b; decide

theorem encode_decodeSeq (b : SeqCode) :
    encode (decodeSeq b) = some (.seq b) ∧ (decodeSeq b).wellFormed = true := by
  revert b; decide

theorem encode_decodeField {lo : Nat} {cells : List (Option Symbol)} {i : Instr}
    (h : decodeField lo cells = .ok i) :
    encode i = some (.field lo cells) ∧ i.wellFormed = true := by
  obtain rfl | rfl | rfl | rfl | rfl := lo_of_decodeField h
  · obtain ⟨rfl, rfl⟩ := decodeField_fixPat.1 h
    exact ⟨rfl, rfl⟩
  · obtain ⟨dst, rfl, rfl⟩ := decodeField_dstPair.1 h
    exact ⟨rfl, rfl⟩
  · obtain ⟨min, rfl, hmin, rfl⟩ := decodeField_encMin.1 h
    simp (disch := omega) [encode, Instr.wellFormed, Nat.mod_eq_of_lt, hmin]
  · obtain ⟨hour, rfl, hhour, rfl⟩ := decodeField_encHour.1 h
    simp (disch := omega) [encode, Instr.wellFormed, Nat.mod_eq_of_lt, hhour]
  · obtain ⟨mday, dow, mon, year2, rfl, ⟨hmday, hdow, hmon, hyear2⟩, rfl⟩ := decodeField_encDate.1 h
    simp (disch := omega) [encode, Instr.wellFormed, Nat.mod_eq_of_lt, hmday, hdow, hmon, hyear2]

/-- A code that decodes is the code of a well-formed instruction: one case a format (R49, R61). -/
theorem encode_decode {c : Code} {i : Instr} (h : decode c = .ok i) : encode i = some c ∧ i.wellFormed = true := by
  cases c with
  | sym b =>
    obtain rfl := Except.ok.inj h
    exact encode_decodeSym b
  | seq b =>
    obtain rfl := Except.ok.inj h
    exact encode_decodeSeq b
  | field lo cells => exact encode_decodeField h
  | frame cells =>
    obtain ⟨c, hc, rfl, rfl⟩ := decodeFrame_eq_ok_iff.1 h
    exact ⟨rfl, hc⟩

end Sys2Proof
end

section
/-! The statements about codes (30_encoding): the round trip, the reserved symbol and the unused states. -/
namespace Sys2Proof.Safety

open Sys2Proof.Machine

/-- Settles O9: from the readers of the groups, each of which accepts what its writer writes. -/
theorem decodeOfEncodeIsIdentity : Obligations.DecodeOfEncodeIsIdentity := fun _ _ => decode_encode

/-- Settles O10: each reader accepts nothing but what its writer writes of numbers in range. -/
theorem decodedCodesAreEncodings : Obligations.DecodedCodesAreEncodings := fun _ _ => encode_decode

/-- Settles O11: symbols and states are read off R50's and R58's tables; a group's cells are the code of its
operation, which decodes back. -/
theorem specCodesDecode : Obligations.SpecCodesDecode :=
  ⟨rfl, rfl, rfl, rfl, rfl, rfl, rfl, rfl, rfl, decode_encode rfl rfl, decode_encode rfl rfl, decode_encode rfl rfl⟩

theorem pulse_reserved (s : State) : pulse Config.symReserved s = raiseFault .illegalSymbol (elapse s) := rfl

/-- Settles O14: either row is PULSE of the reserved symbol, which raises after a computation (R60, R124). -/
theorem reservedSymbolRaisesIllegalSymbol : Obligations.ReservedSymbolRaisesIllegalSymbol := by
  intro i s hi
  have hexec : exec i s = .next (pulse Config.symReserved s) := by
    simp only [List.mem_cons, List.not_mem_nil, or_false] at hi
    obtain rfl | rfl := hi <;> rfl
  refine ⟨_, hexec, ?_, envKept_pulse _ s⟩
  rw [pulse_reserved]
  rfl

/-- Settles O26: the rows of R62's codes let time pass and write nothing. -/
theorem unusedStatesAreStuck : Obligations.UnusedStatesAreStuck := by
  intro i s hi
  have hexec : exec i s = .next (elapse s) := by
    simp only [List.mem_cons, List.not_mem_nil, or_false] at hi
    obtain rfl | rfl | rfl | rfl | rfl := hi <;> rfl
  exact ⟨_, hexec, envKept_elapse s, rfl⟩

end Sys2Proof.Safety
end

section
/-!
Cells that hold given bits: what a run of cells, a decimal quantity and a group with its parity cell read as
(30_encoding R53, R56), whichever operation wrote them.
-/
namespace Sys2Proof.Machine

open Sys2Proof.Safety

/-- The cells from `lo` on hold `bits`, the first of them at `lo` (R53). -/
def HoldsBits (f : Frame) (lo : Nat) (bits : List Bool) : Prop :=
  ∀ k < bits.length, f.read (lo + k) = some (symOf (bits[k]?.getD false))

/-- The `n` cells from `lo` on hold `bits`, and the next one their exclusive-or (R56). -/
structure HoldsGroup (f : Frame) (lo n : Nat) (bits : List Bool) : Prop where
  length_eq : bits.length = n
  holds : HoldsBits f lo (bits ++ [xorAll bits])

theorem Frame.read_writeList_of_outside (f : Frame) {lo a : Nat} {vs : List Symbol}
    (h : ¬(lo ≤ a ∧ a < lo + vs.length)) : (f.writeList lo vs).read a = f.read a := by
  rw [Frame.read_writeList, if_neg h]

theorem holdsBits_writeList (f : Frame) (lo : Nat) (bits : List Bool) :
    HoldsBits (f.writeList lo (bits.map symOf)) lo bits := by
  intro k hk
  simp [Frame.read_writeList, hk]

theorem holdsGroup_writeList (f : Frame) (lo : Nat) {n : Nat} {bits : List Bool} (hn : bits.length = n) :
    HoldsGroup (f.writeList lo (groupCells bits)) lo n bits := ⟨hn, holdsBits_writeList f lo _⟩

section
variable {f : Frame} {lo n i : Nat} {xs ys bits : List Bool}

/-- Cells written beyond a run leave it as it is. -/
theorem HoldsBits.writeList_of_le (h : HoldsBits f lo bits) (hi : lo + bits.length ≤ i) (vs : List Symbol) :
    HoldsBits (f.writeList i vs) lo bits := by
  intro k hk
  rw [Frame.read_writeList_of_outside f (by omega), h k hk]

theorem HoldsBits.left (h : HoldsBits f lo (xs ++ ys)) : HoldsBits f lo xs := by
  intro k hk
  rw [h k (by simp; omega), List.getElem?_append_left hk]

theorem HoldsBits.right (h : HoldsBits f lo (xs ++ ys)) : HoldsBits f (lo + xs.length) ys := by
  intro k hk
  rw [Nat.add_assoc, h (xs.length + k) (by simp; omega), List.getElem?_append_right (by omega),
    Nat.add_sub_cancel_left]

theorem HoldsGroup.writeList_of_lt (h : HoldsGroup f lo n bits) (hi : lo + n < i) (vs : List Symbol) :
    HoldsGroup (f.writeList i vs) lo n bits where
  length_eq := h.length_eq
  holds := h.holds.writeList_of_le (by simp [h.length_eq]; omega) vs

theorem HoldsGroup.content (h : HoldsGroup f lo n bits) : HoldsBits f lo bits := h.holds.left

theorem HoldsGroup.xorCells_eq (h : HoldsGroup f lo n bits) : xorCells f lo n = xorAll bits := by
  rw [xorCells, ← h.length_eq, map_bitAt h.content]

/-- The cell after a group's bits holds what the exclusive-or over their cells is (R56). -/
theorem HoldsGroup.read_parity (h : HoldsGroup f lo n bits) :
    f.read (lo + n) = some (symOf (xorCells f lo n)) := by
  rw [h.xorCells_eq, ← h.length_eq]
  exact h.holds.right 0 Nat.zero_lt_one

theorem HoldsGroup.bitAt_parity (h : HoldsGroup f lo n bits) : bitAt f (lo + n) = xorCells f lo n :=
  bitAt_of_read h.read_parity

end

/-! ### Digits and decimal quantities (R53) -/

section
variable {f : Frame} {lo w v : Nat}

/-- The cells of a digit hold its bits, low bit first. -/
theorem HoldsBits.read_digit (h : HoldsBits f lo (digitBits w v)) :
    ∀ k < w, f.read (lo + k) = some (symOf (v.testBit k)) := by
  intro k hk
  rw [h k (by rwa [digitBits_length]), digitBits_getElem?, if_pos hk, Option.getD_some]

theorem HoldsBits.valAt_digit (h : HoldsBits f lo (digitBits w v)) : valAt f lo w = v % 2 ^ w := by
  have hbits := map_bitAt h
  rw [digitBits_length] at hbits
  rw [valAt, hbits, valueOf_digitBits]

theorem HoldsBits.units (h : HoldsBits f lo (twoDigits w v)) : HoldsBits f lo (digitBits 4 (v % 10)) :=
  HoldsBits.left h

theorem HoldsBits.tens (h : HoldsBits f lo (twoDigits w v)) : HoldsBits f (lo + 4) (digitBits w (v / 10)) := by
  have htens := HoldsBits.right h
  rwa [digitBits_length] at htens

/-- A decimal quantity whose tens digit fits reads back as itself (R83). -/
theorem HoldsBits.valAt_twoDigits (h : HoldsBits f lo (twoDigits w v)) (hfits : v / 10 < 2 ^ w) :
    valAt f lo 4 + 10 * valAt f (lo + 4) w = v := by
  rw [h.units.valAt_digit, h.tens.valAt_digit, Nat.mod_eq_of_lt hfits]
  omega

end

@[simp] theorem dateBits_length (mday dow mon year2 : Nat) : (dateBits mday dow mon year2).length = 22 := by
  simp [dateBits]

/-- The four quantities under the date parity, at the places R77 gives them. -/
theorem HoldsBits.date {f : Frame} {mday dow mon year2 : Nat} (h : HoldsBits f 36 (dateBits mday dow mon year2)) :
    HoldsBits f 36 (twoDigits 2 mday) ∧ HoldsBits f 42 (digitBits 3 dow) ∧ HoldsBits f 45 (twoDigits 1 mon) ∧
      HoldsBits f 50 (twoDigits 4 year2) := by
  have hdow := HoldsBits.right h
  have hmon := HoldsBits.right hdow
  have hyear := HoldsBits.right hmon
  simp only [twoDigits_length, digitBits_length, Nat.reduceAdd] at hdow hmon hyear
  exact ⟨HoldsBits.left h, HoldsBits.left hdow, HoldsBits.left hmon, hyear⟩

/-! ### One flipped cell (R56) -/

theorem bitAt_write (f : Frame) (i j : Nat) (b : Bool) :
    bitAt (f.write i (symOf b)) j = if j = i then b else bitAt f j := by
  split
  · next h => exact bitAt_of_read (by rw [h, Frame.read_write_self])
  · next h => rw [bitAt, Frame.read_write_of_ne f _ h, bitAt]

theorem xorCells_succ (f : Frame) (lo n : Nat) : xorCells f lo (n + 1) = (bitAt f lo ^^ xorCells f (lo + 1) n) := by
  rw [xorCells, List.range'_succ, List.map_cons, xorAll, ← xorCells]

theorem xorCells_write_of_lt (f : Frame) {i lo : Nat} (h : i < lo) (n : Nat) (b : Bool) :
    xorCells (f.write i (symOf b)) lo n = xorCells f lo n := by
  induction n generalizing lo with
  | zero => rfl
  | succ n ih => rw [xorCells_succ, xorCells_succ, ih (Nat.lt_succ_of_lt h), bitAt_write, if_neg (Nat.ne_of_gt h)]

/-- Flipping one cell of a range flips its exclusive-or: the cell is met exactly once. -/
theorem xorCells_flip (f : Frame) {lo n i : Nat} (hlo : lo ≤ i) (hi : i < lo + n) :
    xorCells (f.write i (symOf !(bitAt f i))) lo n = !(xorCells f lo n) := by
  induction n generalizing lo with
  | zero => omega
  | succ n ih =>
    rw [xorCells_succ, xorCells_succ, bitAt_write]
    obtain rfl | hlt := Nat.eq_or_lt_of_le hlo
    · rw [if_pos rfl, xorCells_write_of_lt f (Nat.lt_succ_self _), Bool.not_xor]
    · rw [if_neg (Nat.ne_of_lt hlt), ih hlt (by omega), Bool.xor_not]

end Sys2Proof.Machine
end

section
/-!
What each encoder operation leaves, in the terms in which the statements read it: the cells of its group, its
accumulator, and every other cell and register (41_frame_encoder R67 to R78).
-/
namespace Sys2Proof.Machine

open Sys2Proof.Safety

/-- The time an operation takes adds the environment to what it writes (R111). -/
theorem elapse_writes {t u : State} (h : t = u) : elapse t = { u with env := (elapse t).env } := by
  subst h
  rfl

/-! ### The conditioned weekday and the digits (R68 to R70) -/

theorem dowOf_ne_zero (wraw : BitVec 3) : dowOf wraw ≠ 0 := by
  revert wraw; decide

theorem codedDow_eq (wraw : BitVec 3) : codedDow wraw.toNat = if wraw = 0 then 7 else wraw.toNat := by
  revert wraw; decide

theorem unitsDigit_toNat (v : BitVec 7) : (unitsDigit v).toNat = v.toNat % 10 := by
  rw [unitsDigit, BitVec.toNat_ofNat]
  omega

/-- The tens digit of a 7-bit number is at most 12, so 4 bits hold what is left of it (R70). -/
theorem tensDigit_toNat (v : BitVec 7) (w : Nat) : (tensDigit v w).toNat = v.toNat / 10 % 2 ^ w := by
  have hv : v.toNat < 2 ^ 7 := v.isLt
  have hle : v.toNat / 10 % 2 ^ w ≤ v.toNat / 10 := Nat.mod_le _ _
  rw [tensDigit, BitVec.toNat_ofNat]
  exact Nat.mod_eq_of_lt (by omega)

/-! ### LSBF and PAR (R71, R74) -/

theorem exec_lsbF_of_inside {w : BitVec 3} {lo : BitVec 6} (h : w.toNat = 0 ∨ lo.toNat + w.toNat ≤ Config.nSym)
    (g : BitVec 4) (p : ParSel) (s : State) :
    exec (.lsbF g w lo p) s = .next (elapse (lsbf g w.toNat lo.toNat p s)) := if_neg (by omega)

theorem exec_par_of_cell {pi : BitVec 6} (h : pi.toNat < Config.nSym) (p : ParSel) (s : State) :
    exec (.par p pi) s = .next (elapse (parityCell p pi.toNat s)) := if_neg (Nat.not_le.mpr h)

section
variable (bits : List Bool) (lo : Nat) (p : ParSel) (s : State)

theorem placed_frame : (placed bits lo p s).frame = s.frame.writeList lo (bits.map symOf) := by
  cases p <;> rfl

theorem parityOf_placed : parityOf p (placed bits lo p s) = (parityOf p s ^^ xorAll bits) := by
  cases p <;> rfl

theorem parityOf_placed_of_ne {p q : ParSel} (h : q ≠ p) : parityOf q (placed bits lo p s) = parityOf q s := by
  cases p <;> cases q <;> simp_all [placed, setParity, parityOf]

/-- Placing bits writes F and the accumulators alone. -/
theorem placed_writes : placed bits lo p s =
    { s with
      frame := (placed bits lo p s).frame, p1 := (placed bits lo p s).p1, p2 := (placed bits lo p s).p2
      p3 := (placed bits lo p s).p3 } := by
  cases p <;> rfl

end

/-! ### The groups (R75 to R77) -/

/-- From `s` to `t` a group of `n` bits and its parity cell were written, and no other cell. -/
structure WritesGroup (lo n : Nat) (bits : List Bool) (s t : State) : Prop where
  group : HoldsGroup t.frame lo n bits
  outside : ∀ a, ¬(lo ≤ a ∧ a ≤ lo + n) → t.frame.read a = s.frame.read a

theorem writesGroup_of_frame {lo n : Nat} {bits : List Bool} {s t : State} (hn : bits.length = n)
    (h : t.frame = s.frame.writeList lo (groupCells bits)) : WritesGroup lo n bits s t where
  group := by rw [h]; exact holdsGroup_writeList _ _ hn
  outside a ha := by rw [h]; exact Frame.read_writeList_of_outside _ (by rw [groupCells_length]; omega)

section
variable (min : BitVec 6) (s : State)

theorem encodeMinute_writesGroup : WritesGroup 21 7 (twoDigits 3 min.toNat) s (encodeMinute min s) :=
  writesGroup_of_frame (twoDigits_length _ _) (by rw [encodeMinute_eq, minuteCells])

theorem encodeMinute_p1 : (encodeMinute min s).p1 = xorAll (twoDigits 3 min.toNat) := by rw [encodeMinute_eq]

theorem encodeMinute_writes : encodeMinute min s =
    { s with frame := (encodeMinute min s).frame, p1 := (encodeMinute min s).p1 } := by rw [encodeMinute_eq]

end

section
variable (hour : BitVec 5) (s : State)

theorem encodeHour_writesGroup : WritesGroup 29 6 (twoDigits 2 hour.toNat) s (encodeHour hour s) :=
  writesGroup_of_frame (twoDigits_length _ _) (by rw [encodeHour_eq, hourCells])

theorem encodeHour_p2 : (encodeHour hour s).p2 = xorAll (twoDigits 2 hour.toNat) := by rw [encodeHour_eq]

theorem encodeHour_writes : encodeHour hour s =
    { s with frame := (encodeHour hour s).frame, p2 := (encodeHour hour s).p2 } := by rw [encodeHour_eq]

end

section
variable (mday : BitVec 5) (dow : BitVec 3) (mon : BitVec 4) (year2 : BitVec 7) (s : State)

theorem encodeDate_writesGroup : WritesGroup 36 22 (dateBits mday.toNat dow.toNat mon.toNat year2.toNat) s
    (encodeDate mday dow mon year2 s) :=
  writesGroup_of_frame (dateBits_length _ _ _ _) (by rw [encodeDate_eq, dateCells, ← dateBits])

theorem encodeDate_p3 : (encodeDate mday dow mon year2 s).p3 =
    xorAll (dateBits mday.toNat dow.toNat mon.toNat year2.toNat) := by rw [encodeDate_eq]

theorem encodeDate_writes : encodeDate mday dow mon year2 s =
    { s with frame := (encodeDate mday dow mon year2 s).frame, p3 := (encodeDate mday dow mon year2 s).p3 } := by
  rw [encodeDate_eq]

end

/-! ### The fixed cells and the whole frame (R73, R78) -/

theorem fixPattern_writes (pre : Nat → Symbol) (s : State) :
    fixPattern pre s = { s with frame := (fixPattern pre s).frame } := by
  rw [fixPattern]

section
variable (pre : Nat → Symbol) (c : CalFields) (s : State)

/-- BUILDFRAME's groups, written one after the other from the low cells up. -/
theorem assembleFrame_frame : (assembleFrame pre c s).frame =
    ((((fixPattern pre s).frame.writeList 17 (dstCells c.dst)).writeList 21
      (groupCells (twoDigits 3 c.min.toNat))).writeList 29
      (groupCells (twoDigits 2 (codedHour c.hraw.toNat c.dst)))).writeList 36
      (groupCells (dateBits c.mday.toNat (codedDow c.wraw.toNat) c.mon.toNat c.year2.toNat)) := by
  rw [assembleFrame_eq, minuteCells, hourCells, dateCells, ← dateBits]

theorem assembleFrame_writes : assembleFrame pre c s =
    { s with
      frame := (assembleFrame pre c s).frame, hour := (assembleFrame pre c s).hour
      dow := (assembleFrame pre c s).dow, p1 := (assembleFrame pre c s).p1, p2 := (assembleFrame pre c s).p2
      p3 := (assembleFrame pre c s).p3 } := by
  rw [assembleFrame_eq]

/-! Each group stands in the built frame, since those written after it begin above its parity cell. -/

theorem assembleFrame_minuteGroup : HoldsGroup (assembleFrame pre c s).frame 21 7 (twoDigits 3 c.min.toNat) := by
  rw [assembleFrame_frame]
  exact ((holdsGroup_writeList _ _ (twoDigits_length _ _)).writeList_of_lt (by norm_num) _).writeList_of_lt
    (by norm_num) _

theorem assembleFrame_hourGroup :
    HoldsGroup (assembleFrame pre c s).frame 29 6 (twoDigits 2 (codedHour c.hraw.toNat c.dst)) := by
  rw [assembleFrame_frame]
  exact (holdsGroup_writeList _ _ (twoDigits_length _ _)).writeList_of_lt (by norm_num) _

theorem assembleFrame_dateGroup : HoldsGroup (assembleFrame pre c s).frame 36 22
    (dateBits c.mday.toNat (codedDow c.wraw.toNat) c.mon.toNat c.year2.toNat) := by
  rw [assembleFrame_frame]
  exact holdsGroup_writeList _ _ (dateBits_length _ _ _ _)

theorem exec_buildFrame : exec (.buildFrame c) s = .next (elapse (assembleFrame Config.preamble c s)) := rfl

/-- From cell 36 on the frame pattern is the date group and cell 59 (R52). -/
theorem frameCells_drop_date : (frameCells pre c).drop 36 =
    dateCells c.mday.toNat (codedDow c.wraw.toNat) c.mon.toNat c.year2.toNat ++ [Config.f59Sym] := by
  simp [frameCells_eq_codedCells, codedCells, List.drop_append, List.drop_eq_nil_of_le]

end

theorem eq_of_exec_buildFrame {c : CalFields} {s t : State} (h : exec (.buildFrame c) s = .next t) :
    t = elapse (assembleFrame Config.preamble c s) :=
  (Host.Outcome.next.inj ((exec_buildFrame c s).symm.trans h)).symm

/-- A built frame is NONE at its ends and bits in between (R52). -/
theorem read_assembleFrame_cases (c : CalFields) (s : State) {i : Nat} (hi : i < 60) :
    ((i = 0 ∨ i = 59) ∧ (assembleFrame Config.preamble c s).frame.read i = some Config.symNone) ∨
      ((1 ≤ i ∧ i < 59) ∧ ((assembleFrame Config.preamble c s).frame.read i = some Config.symZero ∨
        (assembleFrame Config.preamble c s).frame.read i = some Config.symOne)) := by
  by_cases hends : i = 0 ∨ i = 59
  · obtain ⟨bits, hlen, hcells⟩ := frameCells_eq_bits c
    refine .inl ⟨hends, ?_⟩
    rw [read_assembleFrame _ c s hi, hcells]
    obtain rfl | rfl := hends
    · rfl
    · simp [hlen]
  · exact .inr ⟨by omega, transmittable_assembleFrame c s i (by omega) (by omega)⟩

end Sys2Proof.Machine
end

section
/-! The statements about the encoder's operations (41_frame_encoder R67 to R77). -/
namespace Sys2Proof.Safety

open Sys2Proof.Machine

/-- Settles O33: HRADJ writes the hour that the frame codes, alone. -/
theorem hourIsAdjustedModulo24 : Obligations.HourIsAdjustedModulo24 :=
  fun s hraw dst => ⟨elapse (adjustHourStep hraw dst s), rfl, exec_envKept (i := .hrAdj hraw dst) rfl,
    hourOf_toNat hraw dst, rfl⟩

/-- Settles O34: DOWMAP moves the one weekday 0 to 7. -/
theorem weekdayIsNeverZero : Obligations.WeekdayIsNeverZero :=
  fun s wraw => ⟨elapse (mapDowStep wraw s), rfl, exec_envKept (i := .dowMap wraw) rfl, rfl, dowOf_ne_zero wraw, rfl⟩

/-- Settles O35: both digits fit the 4 bits in which they are left. -/
theorem digitsAreDecimal : Obligations.DigitsAreDecimal :=
  ⟨fun _ v => ⟨_, rfl, exec_envKept (i := .bcdU v) rfl, unitsDigit_toNat v, rfl⟩,
    fun _ v w => ⟨_, rfl, exec_envKept (i := .bcdT v w) rfl, tensDigit_toNat v w.toNat, rfl⟩⟩

/-- Settles O36: LSBF places the low bits of its digit under its accumulator. -/
theorem digitIsPlacedLowBitFirst : Obligations.DigitIsPlacedLowBitFirst := by
  intro s g w lo p hinside
  have hexec := exec_lsbF_of_inside hinside g p s
  rw [lsbf_eq] at hexec
  refine ⟨_, hexec, exec_envKept hexec, ?_, ?_, ?_, ?_, elapse_writes (placed_writes _ _ p s)⟩
  · rw [elapse_frame, placed_frame]
    exact (holdsBits_writeList _ _ _).read_digit
  · intro a ha
    rw [elapse_frame, placed_frame]
    exact Frame.read_writeList_of_outside _ (by simpa using ha)
  · rw [List.range_eq_range', ← bitsFrom, bitsFrom_zero_eq]
    exact parityOf_placed _ _ p s
  · exact fun q hq => parityOf_placed_of_ne _ _ s hq

/-- Settles O37: PAR is one write of the accumulator's symbol. -/
theorem parityCellIsTheAccumulator : Obligations.ParityCellIsTheAccumulator := by
  intro s p pi hpi
  have hexec := exec_par_of_cell hpi p s
  exact ⟨_, hexec, exec_envKept hexec, Frame.read_write_self _ _ _, fun a ha => Frame.read_write_of_ne _ _ ha, rfl⟩

/-- Settles O39: DSTPAIR writes the flag and its negation, side by side. -/
theorem daylightPairHasOneBitSet : Obligations.DaylightPairHasOneBitSet := by
  intro s dst
  refine ⟨elapse (dstPair dst s), rfl, exec_envKept (i := .dstPair dst) rfl, ?_, ?_, ?_, rfl⟩
  · rw [elapse_frame, dstPair_eq, Frame.read_writeList]
    cases dst <;> rfl
  · rw [elapse_frame, dstPair_eq, Frame.read_writeList]
    cases dst <;> rfl
  · intro a h17 h18
    rw [elapse_frame, dstPair_eq]
    exact Frame.read_writeList_of_outside _ (by rw [dstCells_length]; omega)

/-- Settles O40: the cells of FIXPAT, for every PREAMBLE and for the default. -/
theorem fixedCellsAreWritten : Obligations.FixedCellsAreWritten := by
  refine ⟨fun pre s => ⟨read_fixPattern pre s, fixPattern_writes pre s⟩, fun s => ?_⟩
  have hread := read_fixPattern Config.preamble s
  have hexec : exec .fixPat s = .next (elapse (fixPattern Config.preamble s)) := rfl
  have hwrites := elapse_writes (fixPattern_writes Config.preamble s)
  generalize fixPattern Config.preamble s = t at *
  exact ⟨elapse t, hexec, exec_envKept hexec, hwrites, hread⟩

/-- Settles O41: the minute's two digits and their parity cell. -/
theorem minuteGroupIsWritten : Obligations.MinuteGroupIsWritten := by
  intro s min
  have hexec : exec (.encMin min) s = .next (elapse (encodeMinute min s)) := rfl
  obtain ⟨hgroup, houtside⟩ := encodeMinute_writesGroup min s
  have hp1 := encodeMinute_p1 min s
  have hwrites := elapse_writes (encodeMinute_writes min s)
  generalize encodeMinute min s = t at *
  exact ⟨elapse t, hexec, exec_envKept hexec, hgroup.content.units.read_digit, hgroup.content.tens.read_digit,
    hgroup.read_parity, hp1.trans hgroup.xorCells_eq.symm, houtside, hwrites⟩

/-- Settles O42: the hour's two digits and their parity cell. -/
theorem hourGroupIsWritten : Obligations.HourGroupIsWritten := by
  intro s hour
  have hexec : exec (.encHour hour) s = .next (elapse (encodeHour hour s)) := rfl
  obtain ⟨hgroup, houtside⟩ := encodeHour_writesGroup hour s
  have hp2 := encodeHour_p2 hour s
  have hwrites := elapse_writes (encodeHour_writes hour s)
  generalize encodeHour hour s = t at *
  exact ⟨elapse t, hexec, exec_envKept hexec, hgroup.content.units.read_digit, hgroup.content.tens.read_digit,
    hgroup.read_parity, hp2.trans hgroup.xorCells_eq.symm, houtside, hwrites⟩

/-- Settles O43: the date's four quantities and their one parity cell. -/
theorem dateGroupIsWritten : Obligations.DateGroupIsWritten := by
  intro s mday dow mon year2
  have hexec : exec (.encDate mday dow mon year2) s = .next (elapse (encodeDate mday dow mon year2 s)) := rfl
  obtain ⟨hgroup, houtside⟩ := encodeDate_writesGroup mday dow mon year2 s
  have hp3 := encodeDate_p3 mday dow mon year2 s
  have hwrites := elapse_writes (encodeDate_writes mday dow mon year2 s)
  generalize encodeDate mday dow mon year2 s = t at *
  obtain ⟨hday, hdow, hmon, hyear⟩ := hgroup.content.date
  exact ⟨elapse t, hexec, exec_envKept hexec, hday.units.read_digit, hday.tens.read_digit, hdow.read_digit,
    hmon.units.read_digit, hmon.tens.read_digit 0 Nat.zero_lt_one, hyear.units.read_digit, hyear.tens.read_digit,
    hgroup.read_parity, hp3.trans hgroup.xorCells_eq.symm, houtside, hwrites⟩

end Sys2Proof.Safety
end

section
/-! The statements about the frame that BUILDFRAME leaves (41_frame_encoder R78 to R83). -/
namespace Sys2Proof.Safety

open Sys2Proof.Machine

/-- Settles O44: the pattern's cells, of which only the ends are no bits. -/
theorem buildframeWritesThePattern : Obligations.BuildframeWritesThePattern := by
  intro s c
  have hexec := exec_buildFrame c s
  have hcells : ∀ i < 60, (assembleFrame Config.preamble c s).frame.read i = (frameCells Config.preamble c)[i]? :=
    fun i hi => read_assembleFrame Config.preamble c s hi
  have hcases := fun i (hi : i < 60) => read_assembleFrame_cases c s hi
  have hwrites := elapse_writes (assembleFrame_writes Config.preamble c s)
  generalize assembleFrame Config.preamble c s = t at *
  refine ⟨elapse t, hexec, exec_envKept hexec, hcells, fun i hi => ?_, hwrites⟩
  obtain ⟨hends, hread⟩ | ⟨hinside, hread | hread⟩ := hcases i hi <;> rw [elapse_frame, hread]
  · exact ⟨by decide, fun _ => hends, fun _ => rfl⟩
  · exact ⟨by decide, fun h => absurd h (by decide), by omega⟩
  · exact ⟨by decide, fun h => absurd h (by decide), by omega⟩

/-- Settles O45: each parity cell closes its group, and a flipped cell is met once in its range. -/
theorem parityCellsCoverTheirRanges : Obligations.ParityCellsCoverTheirRanges := by
  refine ⟨fun pre c s f hf => ?_, fun f _ _ _ => xorCells_flip f⟩
  rw [hf]
  exact ⟨(assembleFrame_minuteGroup pre c s).bitAt_parity, (assembleFrame_hourGroup pre c s).bitAt_parity,
    (assembleFrame_dateGroup pre c s).bitAt_parity⟩

/-- Settles O46: each quantity reads back from its digits, whose tens fit because the operands are in range. -/
theorem fieldsReadBackAsEncoded : Obligations.FieldsReadBackAsEncoded := by
  intro pre c s f hrange hf
  obtain ⟨hmin, -, -, hwraw, ⟨-, hmon⟩, hyear⟩ := inRange_iff.1 hrange
  have hhour := codedHour_le c.hraw.toNat c.dst
  have hday := c.mday.isLt
  have minute := (assembleFrame_minuteGroup pre c s).content
  have hour := (assembleFrame_hourGroup pre c s).content
  obtain ⟨day, dow, mon, year⟩ := (assembleFrame_dateGroup pre c s).content.date
  rw [← hf] at minute hour day dow mon year
  refine ⟨minute.valAt_twoDigits (by omega), hour.valAt_twoDigits (by omega), day.valAt_twoDigits (by omega), ?_,
    mon.valAt_twoDigits (by omega), year.valAt_twoDigits (by omega)⟩
  have hdow := codedDow_bounds hwraw
  rw [dow.valAt_digit, ← codedDow_eq]
  exact Nat.mod_eq_of_lt (by omega)

/-- Settles O47: from cell 36 on the pattern names no other operand. -/
theorem hourWrapDoesNotCarry : Obligations.HourWrapDoesNotCarry := by
  intro c c' s s' t t' hmday hwraw hmon hyear ht ht' i hlo hi
  obtain ⟨k, rfl⟩ := Nat.exists_eq_add_of_le hlo
  rw [eq_of_exec_buildFrame ht, eq_of_exec_buildFrame ht', elapse_frame, elapse_frame, read_assembleFrame _ _ _ hi,
    read_assembleFrame _ _ _ hi, ← List.getElem?_drop, ← List.getElem?_drop, frameCells_drop_date,
    frameCells_drop_date, hmday, hwraw, hmon, hyear]

/-- Settles O48: cells 0 to 59 hold the pattern of the operands, and a canonical F lists no other cell. -/
theorem equalOperandsGiveEqualFrames : Obligations.EqualOperandsGiveEqualFrames := by
  intro c s s' t t' ht ht'
  rw [eq_of_exec_buildFrame ht, eq_of_exec_buildFrame ht', elapse_frame, elapse_frame]
  have hcells : ∀ i < 60, (assembleFrame Config.preamble c s).frame.read i =
      (assembleFrame Config.preamble c s').frame.read i := fun i hi => by
    rw [read_assembleFrame _ c s hi, read_assembleFrame _ c s' hi]
  refine ⟨hcells, by simp, by simp, fun hs hs' i => ?_⟩
  obtain hi | hi := Nat.lt_or_ge i 60
  · exact hcells i hi
  · rw [Frame.read_eq_none_of_wf (wf_assembleFrame _ c hs) hi, Frame.read_eq_none_of_wf (wf_assembleFrame _ c hs') hi]

end Sys2Proof.Safety
end

section
/-!
What the sequencer's rows draw from the environment, and the two shapes they share: an emission (R91, R93, R96)
and a wait for the second boundary (R90, R92, R94, R97).
-/
namespace Sys2Proof.Machine

open Sys2Proof.Safety

section
variable (s : State)

/-! ### Which answers are drawn -/

@[simp] theorem emitStatus_env_starts (what : StatusInfo) : (emitStatus what s).env.starts = s.env.starts := rfl

@[simp] theorem emitStatus_env_clockOks (what : StatusInfo) :
    (emitStatus what s).env.clockOks = s.env.clockOks := rfl

@[simp] theorem pulseOf_env_starts (d : Nat) : (pulseOf d s).env.starts = s.env.starts := by
  simp [pulseOf, keyOn, keyOff, atOneMoment]

@[simp] theorem pulseOf_env_clockOks (d : Nat) : (pulseOf d s).env.clockOks = s.env.clockOks := by
  simp [pulseOf, keyOn, keyOff, atOneMoment]

@[simp] theorem pulse_env_starts (sy : Symbol) : (pulse sy s).env.starts = s.env.starts := by
  unfold pulse
  split_ifs <;> simp

@[simp] theorem pulse_env_clockOks (sy : Symbol) : (pulse sy s).env.clockOks = s.env.clockOks := by
  unfold pulse
  split_ifs <;> simp

@[simp] theorem clockLatched_env_starts : (clockLatched s).env.starts = s.env.starts := by
  simp [clockLatched, atOneMoment]

@[simp] theorem clockLatched_env_clockOks : (clockLatched s).env.clockOks = s.env.clockOks.tail := by
  simp [clockLatched, atOneMoment]

@[simp] theorem clockLatched_env_stopReqs : (clockLatched s).env.stopReqs = s.env.stopReqs := by
  simp [clockLatched, atOneMoment]

@[simp] theorem waited_env_starts : (waited s).env.starts = s.env.starts := by simp [waited]

@[simp] theorem waited_env_clockOks : (waited s).env.clockOks = s.env.clockOks.tail := by simp [waited]

@[simp] theorem waited_env_stopReqs : (waited s).env.stopReqs = s.env.stopReqs := by simp [waited]

@[simp] theorem pollStep_env_starts : (pollStep s).env.starts = s.env.starts := by
  simp [pollStep, pollDecision]

@[simp] theorem buildStep_env_starts : (buildStep s).env.starts = s.env.starts := by simp [buildStep]

@[simp] theorem buildStep_env_clockOks : (buildStep s).env.clockOks = s.env.clockOks := by simp [buildStep]

@[simp] theorem advanceStep_env_starts : (advanceStep s).env.starts = s.env.starts := by
  unfold advanceStep
  split <;> rfl

@[simp] theorem advanceStep_env_clockOks : (advanceStep s).env.clockOks = s.env.clockOks := by
  unfold advanceStep
  split <;> rfl

@[simp] theorem emitStep_env_starts (sy : Symbol) : (emitStep sy s).env.starts = s.env.starts := by
  unfold emitStep
  split <;> simp

end

theorem clockReadThen_env_starts {k : State → State} (hk : ∀ s, (k s).env.starts = s.env.starts) (s : State) :
    (clockReadThen k s).env.starts = s.env.starts := by
  obtain e | e := clockReadThen_cases k s
  · rw [e, hk, clockLatched_env_starts]
  · rw [e]
    rfl

theorem waitThen_env_starts {k : State → State} (hk : ∀ s, (k s).env.starts = s.env.starts) (s : State) :
    (waitThen k s).env.starts = s.env.starts :=
  clockReadThen_env_starts (fun t => hk (sleepFor _ t)) s

/-- Only IDLE samples start (R88). -/
theorem exec_env_starts {i : Instr} {s t : State} (hi : i ≠ .idle) (h : exec i s = .next t) :
    t.env.starts = s.env.starts := by
  cases i
  case idle => exact absurd rfl hi
  case sym0 | sym1 | symN | symReserved | pulse =>
    obtain rfl := Host.Outcome.next.inj h
    exact pulse_env_starts s _
  case s59Emit | s0Emit =>
    obtain rfl := Host.Outcome.next.inj h
    simp
  case acqPoll =>
    obtain rfl := Host.Outcome.next.inj h
    exact clockReadThen_env_starts pollStep_env_starts s
  case build =>
    obtain rfl := Host.Outcome.next.inj h
    exact clockReadThen_env_starts buildStep_env_starts s
  case clockRead =>
    obtain rfl := Host.Outcome.next.inj h
    exact clockReadThen_env_starts (fun _ => rfl) s
  case acqWait | s59Wait | s0Wait =>
    obtain rfl := Host.Outcome.next.inj h
    exact waitThen_env_starts (fun t => goto_env_starts t _) s
  case waitB =>
    obtain rfl := Host.Outcome.next.inj h
    exact waitThen_env_starts (fun _ => rfl) s
  case dWait =>
    obtain rfl := Host.Outcome.next.inj h
    exact waitThen_env_starts advanceStep_env_starts s
  case dEmit =>
    obtain ⟨sy, -, -, rfl⟩ := fetchSymbolThen_cases h
    exact emitStep_env_starts s sy
  case buildFrame c =>
    rw [eq_of_exec_buildFrame h]
    simp
  case fixPat =>
    obtain rfl : elapse (fixPattern Config.preamble s) = t := Host.Outcome.next.inj h
    simp
  case encMin m =>
    obtain rfl : elapse (encodeMinute m s) = t := Host.Outcome.next.inj h
    simp [encodeMinute_eq]
  case encHour m =>
    obtain rfl : elapse (encodeHour m s) = t := Host.Outcome.next.inj h
    simp [encodeHour_eq]
  case encDate a b c d =>
    obtain rfl : elapse (encodeDate a b c d s) = t := Host.Outcome.next.inj h
    simp [encodeDate_eq]
  case lsbF g w lo p =>
    obtain ⟨-, rfl⟩ := exec_lsbF_cases h
    simp [lsbf_eq, placed]
  case par =>
    obtain ⟨-, rfl⟩ := exec_par_cases h
    rfl
  case calendar =>
    obtain rfl := Host.Outcome.next.inj h
    simp
  case halt | seqUnused1010 | seqUnused1011 | seqUnused1100 | seqUnused1101 | seqUnused1110 | dstPair | hrAdj |
      dowMap | bcdU | bcdT | sleep | keyOff | keyOn | status | raise | reset =>
    obtain rfl := Host.Outcome.next.inj h
    rfl

end Sys2Proof.Machine
end

section
/-!
The two shapes of the sequencer's rows, each said once: an emission records a status line and sends one symbol
(R91, R93, R96), a wait reaches the second boundary or raises (R90, R92, R94, R97).
-/
namespace Sys2Proof.Machine

open Sys2Proof.Safety

theorem now_le_of_envKept {s t : State} (h : EnvKept s t) : s.env.now ≤ t.env.now := h.2.2

theorem resets_of_envKept {s t : State} (h : EnvKept s t) : t.env.resets = s.env.resets := h.2.1

/-! ### Emissions -/

/-- A status line, the symbol as a pulse, and the write of PC: what S59_EMIT, S0_EMIT and D_EMIT do. -/
def emission (what : StatusInfo) (sy : Symbol) (p : SeqCode) (s : State) : State :=
  goto p (pulse sy (emitStatus what s))

theorem exec_s59Emit (s : State) :
    exec .s59Emit s = .next (emission (.emit 59 Config.gapSym) Config.gapSym Config.pcS59Wait s) := rfl

theorem exec_s0Emit (s : State) :
    exec .s0Emit s = .next (emission (.emit 0 Config.startSym) Config.startSym Config.pcS0Wait s) := rfl

theorem emitStep_reserved (s : State) :
    emitStep Config.symReserved s = raiseFault .illegalSymbol (elapse s) := if_pos rfl

theorem emitStep_of_ne {sy : Symbol} (h : sy ≠ Config.symReserved) (s : State) :
    emitStep sy s = emission (.emit s.idx sy) sy Config.pcDWait s := if_neg h

theorem exec_dEmit_of_written {s : State} {sy : Symbol} (hi : s.idx.toNat < Config.nSym)
    (hr : s.frame.read s.idx.toNat = some sy) : exec .dEmit s = .next (emitStep sy s) :=
  fetchSymbolThen_of_written hi hr _

theorem envKept_emission (what : StatusInfo) (sy : Symbol) (p : SeqCode) (s : State) :
    EnvKept s (emission what sy p s) :=
  (envKept_emitStatus what s).trans ((envKept_pulse sy _).trans (envKept_goto p _))

/-- A pulse inside a step is a pulse of the step, if the step has no other key event. -/
theorem onePulse_of_inside {d : Nat} {s t u v : State} (h : OnePulse d t u) (ht : t.trace = s.trace)
    (hst : s.env.now ≤ t.env.now) (hu : v.trace = u.trace) (huv : u.env.now ≤ v.env.now) : OnePulse d s v := by
  obtain ⟨off, on, htrace, hoff, hd, hon⟩ := h
  exact ⟨off, on, by rw [hu, htrace, ht], hst.trans hoff, hd, hon.trans huv⟩

/-- The symbols ZERO and ONE as pulses (R112, R113). -/
theorem pulse_bit_spec {sy : Symbol} (hn : sy ≠ Config.symNone) (hr : sy ≠ Config.symReserved) (s : State) :
    OnePulse (if sy = 1 then 200000 else 100000) s (pulse sy s) ∧
      pulse sy s = { s with
        key := true, tmr := 0, trace := (pulse sy s).trace, env := (pulse sy s).env } := by
  obtain rfl | rfl : sy = Config.symZero ∨ sy = Config.symOne := by revert sy; decide
  · obtain ⟨hpulse, -, hwrites⟩ := pulseOf_spec (d := Config.t0Us) (by norm_num) s
    exact ⟨hpulse, hwrites⟩
  · obtain ⟨hpulse, -, hwrites⟩ := pulseOf_spec (d := Config.t1Us) (by norm_num) s
    exact ⟨hpulse, hwrites⟩

/-- An emission of NONE is the status line alone (R114). -/
theorem emission_none_spec (what : StatusInfo) (p : SeqCode) (s : State) :
    ∃ u, s.env.now ≤ u ∧ u ≤ (emission what Config.symNone p s).env.now ∧
      emission what Config.symNone p s = { s with
        pc := p, status := s.status ++ [{ time := u, what := what }]
        env := (emission what Config.symNone p s).env } := by
  obtain ⟨-, u, hlo, hhi, hwrites⟩ := emitStatus_spec what s
  rw [emission, pulse_none]
  generalize emitStatus what s = e at hhi hwrites ⊢
  exact ⟨u, hlo, hhi.trans (now_le_of_envKept (envKept_goto p e)), by rw [hwrites]; rfl⟩

/-- An emission of ZERO or ONE is the status line and one pulse (R112, R113). -/
theorem emission_bit_spec {sy : Symbol} (hn : sy ≠ Config.symNone) (hr : sy ≠ Config.symReserved)
    (what : StatusInfo) (p : SeqCode) (s : State) :
    OnePulse (if sy = 1 then 200000 else 100000) s (emission what sy p s) ∧
      ∃ u, s.env.now ≤ u ∧ u ≤ (emission what sy p s).env.now ∧
        emission what sy p s = { s with
          key := true, tmr := 0, pc := p, trace := (emission what sy p s).trace
          status := s.status ++ [{ time := u, what := what }], env := (emission what sy p s).env } := by
  obtain ⟨-, u, hlo, hhi, hwrites⟩ := emitStatus_spec what s
  have htrace : (emitStatus what s).trace = s.trace := emitStatus_trace s what
  have hsend := now_le_of_envKept (envKept_pulse sy (emitStatus what s))
  obtain ⟨hpulse, hsent⟩ := pulse_bit_spec hn hr (emitStatus what s)
  rw [emission]
  generalize emitStatus what s = e at *
  generalize pulse sy e = v at *
  have hend := now_le_of_envKept (envKept_goto p v)
  refine ⟨onePulse_of_inside hpulse htrace (hlo.trans hhi) rfl hend, u, hlo, hhi.trans (hsend.trans hend), ?_⟩
  rw [hsent, hwrites]
  rfl

/-- With the durations and the lateness named, a pulse's events and its end to the microsecond (R119). -/
theorem pulseOf_exact {s : State} {a b c e l n : Nat} {durs lats : List Nat} (hn : n < 2 ^ 20)
    (hd : s.env.durs = a :: b :: c :: e :: durs) (hl : s.env.lats = l :: lats) :
    (pulseOf n s).trace = s.trace ++ [{ time := s.env.now + a, on := false },
        { time := s.env.now + a + b + n + l + c, on := true }] ∧
      (pulseOf n s).env.now = s.env.now + a + b + n + l + c + e ∧ (pulseOf n s).env.durs = durs := by
  simpa [pulseOf, keyOn, keyOff, atOneMoment, Env.nextDur, Env.nextLat, hd, hl] using hn

/-- The same of the status line before it (R117). -/
theorem emitStatus_exact {s : State} {a b : Nat} {durs : List Nat} (hd : s.env.durs = a :: b :: durs)
    (what : StatusInfo) :
    (emitStatus what s).env.now = s.env.now + a + b ∧ (emitStatus what s).env.durs = durs ∧
      (emitStatus what s).env.lats = s.env.lats := by
  simp [emitStatus, atOneMoment, Env.nextDur, hd]

/-! ### Waits for the second boundary -/

theorem exec_acqWait (s : State) : exec .acqWait s = .next (waitThen (goto Config.pcAcqPoll) s) := rfl

theorem exec_s59Wait (s : State) : exec .s59Wait s = .next (waitThen (goto Config.pcS0Emit) s) := rfl

theorem exec_s0Wait (s : State) : exec .s0Wait s = .next (waitThen (goto Config.pcBuild) s) := rfl

theorem exec_dWait (s : State) : exec .dWait s = .next (waitThen advanceStep s) := rfl

/-- WAITB's sleep ends at the boundary that follows its clock read, or later (R116). -/
theorem waited_reaches_boundary (s : State) :
    ∃ w, s.env.now ≤ w ∧ (w / 1000000 + 1) * 1000000 ≤ (waited s).env.now ∧
      waited s = { s with
        secs := w / 1000000, us := .ofNat 20 (w % 1000000), tmr := 0, env := (waited s).env } := by
  obtain ⟨w, hlo, hsleep, hwrites⟩ := waited_spec s
  exact ⟨w, hlo, by omega, hwrites⟩

/-- A clock read that fails raises ClockReadFailure, and the rest of the step is not executed (R123). -/
theorem raised_of_wait_failure {s : State} (k : State → State) (h : s.env.nextClockOk = false) :
    Raised .clockReadFailure s (waitThen k s) := (raised_of_clock_failure _ h).1

/-- At IDX 58 the cycle starts again (R97). -/
theorem advanceStep_of_last {s : State} (h : s.idx = Config.lastData) :
    advanceStep s = goto Config.pcS59Emit s := if_pos h

theorem advanceStep_of_ne_last {s : State} (h : s.idx ≠ Config.lastData) :
    advanceStep s = goto Config.pcDEmit { s with idx := nextIdx s.idx } := if_neg h

/-- D_WAIT after its wait writes IDX and PC; only at 63 is the new IDX a free value (R97, R163). -/
theorem advanceStep_spec (s : State) :
    ∃ idx, (s.idx ≠ 63 → idx = if s.idx = 58 then 58 else s.idx + 1) ∧
      advanceStep s = { s with
        idx := idx, pc := if s.idx = 58 then 3 else 8, env := (advanceStep s).env } := by
  by_cases h : s.idx = 58
  · simp only [advanceStep_of_last h, if_pos h]
    exact ⟨58, fun _ => rfl, by rw [← h]; rfl⟩
  · simp only [advanceStep_of_ne_last h, if_neg h]
    exact ⟨nextIdx s.idx, fun h63 => if_neg h63, rfl⟩

/-- A wait that samples its stop request at 1 ends in IDLE (R104). -/
theorem waitStep_of_stop {s : State} (hok : s.env.nextClockOk = true) (hstop : s.env.stopReqs.head? = some true)
    (k : State → State) : waitStep true k s = goto Config.pcIdle (takeStop (waited s)) := by
  have hnext : (waited s).env.nextStop = true := by
    rw [Env.nextStop, waited_env_stopReqs, List.headD_eq_head?_getD, hstop, Option.getD_some]
  exact (waitThen_ok hok _).trans (unlessStopped_of_stop hnext k)

/-- A wait that samples it at 0 goes on (R104). -/
theorem waitStep_of_go {s : State} (hok : s.env.nextClockOk = true) (hgo : s.env.stopReqs.head? = some false)
    (k : State → State) : waitStep true k s = k (takeStop (waited s)) := by
  have hnext : (waited s).env.nextStop = false := by
    rw [Env.nextStop, waited_env_stopReqs, List.headD_eq_head?_getD, hgo, Option.getD_some]
  exact (waitThen_ok hok _).trans (unlessStopped_of_go hnext k)

/-! ### ACQ_POLL and BUILD after their clock read -/

/-- The status line of a poll follows its query (R89). -/
theorem pollStep_status (s : State) : (pollStep s).status = s.status ++
    [{ time := (elapse (elapse s)).env.now, what := .sync (calOf (s.env.calendarAt s.secs)).sec }] := by
  simp only [pollStep, pollDecision, goto_status, emitStatus_status, elapse_status, elapse_sec, queryCalendar]
  rfl

/-- ACQ_POLL takes the second from the time source, records it and decides by it (R89). -/
theorem pollStep_spec (s : State) :
    ∃ u, s.env.now ≤ u ∧ u ≤ (pollStep s).env.now ∧ ∀ sec, sec = (calOf (s.env.calendarAt s.secs)).sec →
      pollStep s = { s with
        sec := sec, pc := if sec = 59 then 3 else 2
        status := s.status ++ [{ time := u, what := .sync sec }], env := (pollStep s).env } := by
  have hend : (elapse (elapse s)).env.now ≤ (pollStep s).env.now :=
    (Nat.le_add_right _ _).trans (Nat.le_add_right _ _)
  refine ⟨(elapse (elapse s)).env.now, now_le_of_envKept ((envKept_elapse s).trans (envKept_elapse _)), hend, ?_⟩
  rintro _ rfl
  ext1 <;> simp [pollStep_status]

/-- BUILD's frame is that of the instant 60 seconds after its clock read, and its registers R95's (R95). -/
theorem buildStep_spec (s : State) :
    (∀ i < 60, (buildStep s).frame.read i =
      (frameCells Config.preamble (calOf (s.env.calendarAt (s.secs + 60))).toCalFields)[i]?) ∧
      buildStep s = { s with
        frame := (buildStep s).frame, idx := 1, pc := 8, cal := calOf (s.env.calendarAt (s.secs + 60))
        hour := (buildStep s).hour, dow := (buildStep s).dow
        p1 := (buildStep s).p1, p2 := (buildStep s).p2, p3 := (buildStep s).p3, env := (buildStep s).env } := by
  constructor
  · intro i hi
    rw [buildStep_frame, buildStep_cal]
    exact read_assembleFrame _ _ _ hi
  · ext1 <;> simp

end Sys2Proof.Machine
end

section
/-! The statements about single sequencer states (42_scheduler R88 to R98). -/
namespace Sys2Proof.Safety

open Sys2Proof.Machine

/-- Settles O16: IDLE draws start and writes PC alone, and it is the one row that draws start. -/
theorem idleWaitsForStart : Obligations.IdleWaitsForStart :=
  ⟨fun _ => ⟨_, rfl, exec_envKept (i := .idle) rfl, rfl⟩, fun _ _ _ => exec_env_starts⟩

/-- Settles O17: the poll after the moment its clock read took. -/
theorem pollLeavesAcquisitionAt59 : Obligations.PollLeavesAcquisitionAt59 := by
  intro s
  refine ⟨clockReadThen pollStep s, rfl, exec_envKept (i := .acqPoll) rfl, ?_⟩
  split
  next hok =>
    rw [clockReadThen_ok hok]
    have hcal := calendarAt_of_envKept (envKept_clockLatched s)
    obtain ⟨w, hlo, hhi, hlatched⟩ := clockLatched_spec s
    obtain ⟨u, hu, hend, hpoll⟩ := pollStep_spec (clockLatched s)
    have hsecs : (clockLatched s).secs = w / 1000000 := by rw [hlatched]
    have hwrites := hpoll (calOf (s.env.calendarAt (w / 1000000))).sec (by rw [hsecs, hcal])
    generalize pollStep (clockLatched s) = t at *
    refine ⟨w, u, _, hlo, hhi.trans hu, hend, rfl, ?_⟩
    rw [hwrites, hlatched]
  next hfail => exact (raised_of_clock_failure _ (Bool.eq_false_of_not_eq_true hfail)).1

/-- Settles O18: the three wait states are WAITB and the write of their successor. -/
theorem waitStatesReachTheBoundary : Obligations.WaitStatesReachTheBoundary := by
  intro i p s hip
  have hexec : exec i s = .next (waitThen (goto p) s) := by
    simp only [List.mem_cons, Prod.mk.injEq, List.not_mem_nil, or_false] at hip
    obtain ⟨rfl, rfl⟩ | ⟨rfl, rfl⟩ | ⟨rfl, rfl⟩ := hip
    · exact exec_acqWait s
    · exact exec_s59Wait s
    · exact exec_s0Wait s
  refine ⟨_, hexec, exec_envKept hexec, ?_⟩
  split
  next hok =>
    rw [waitThen_ok hok]
    obtain ⟨w, hlo, hboundary, hwrites⟩ := waited_reaches_boundary s
    generalize waited s = u at *
    exact ⟨w, hlo, hboundary.trans (now_le_of_envKept (envKept_goto p u)), by rw [hwrites]; rfl⟩
  next hfail => exact raised_of_wait_failure _ (Bool.eq_false_of_not_eq_true hfail)

/-- Settles O19: an emission of NONE. -/
theorem gapSecondSendsNothing : Obligations.GapSecondSendsNothing :=
  fun s => ⟨_, exec_s59Emit s, envKept_emission _ _ _ s, emission_none_spec _ _ s⟩

/-- Settles O20: an emission of ONE. -/
theorem startSecondSendsFixedPulse : Obligations.StartSecondSendsFixedPulse := by
  intro s
  obtain ⟨hpulse, u, hlo, -, hwrites⟩ := emission_bit_spec (sy := Config.startSym) (by decide) (by decide)
    (.emit 0 Config.startSym) Config.pcS0Wait s
  exact ⟨_, exec_s0Emit s, envKept_emission _ _ _ s, hpulse, u, hlo, hwrites⟩

/-- Settles O21: the frame and the registers that BUILD leaves after the moment its clock read took. -/
theorem buildWritesTheCompleteFrame : Obligations.BuildWritesTheCompleteFrame := by
  intro s
  refine ⟨clockReadThen buildStep s, rfl, exec_envKept (i := .build) rfl, ?_⟩
  split
  next hok =>
    rw [clockReadThen_ok hok]
    have hcal := calendarAt_of_envKept (envKept_clockLatched s)
    have hend := now_le_of_envKept (envKept_buildStep (clockLatched s))
    obtain ⟨w, hlo, hhi, hlatched⟩ := clockLatched_spec s
    obtain ⟨hframe, hwrites⟩ := buildStep_spec (clockLatched s)
    have hsecs : (clockLatched s).secs = w / 1000000 := by rw [hlatched]
    rw [hsecs, hcal] at hframe hwrites
    generalize buildStep (clockLatched s) = t at *
    refine ⟨w, _, hlo, hhi.trans hend, rfl, hframe, ?_⟩
    rw [hlatched] at hwrites
    exact hwrites
  next hfail => exact (raised_of_clock_failure _ (Bool.eq_false_of_not_eq_true hfail)).1

/-- Settles O22: the symbol at IDX is reserved and raises, or it is emitted. -/
theorem dataSecondSendsItsCell : Obligations.DataSecondSendsItsCell := by
  intro s sy hi hr
  have hexec := exec_dEmit_of_written hi hr
  refine ⟨_, hexec, exec_envKept hexec, ?_⟩
  split
  next hreserved =>
    subst hreserved
    rw [emitStep_reserved]
    rfl
  next hreserved =>
    rw [emitStep_of_ne hreserved]
    split
    next hnone =>
      subst hnone
      exact emission_none_spec _ _ s
    next hnone =>
      obtain ⟨hpulse, u, hlo, hhi, hwrites⟩ :=
        emission_bit_spec hnone hreserved (.emit s.idx sy) Config.pcDWait s
      exact ⟨u, hlo, hhi, hpulse, hwrites⟩

/-- Settles O24: WAITB, and then IDX at 58 or below it. -/
theorem dataWaitAdvancesTheIndex : Obligations.DataWaitAdvancesTheIndex := by
  intro s
  refine ⟨_, exec_dWait s, exec_envKept (exec_dWait s), ?_⟩
  split
  next hok =>
    rw [waitThen_ok hok]
    have hend := now_le_of_envKept (envKept_advanceStep (waited s))
    obtain ⟨w, hlo, hboundary, hwaited⟩ := waited_reaches_boundary s
    obtain ⟨idx, hidx, hwrites⟩ := advanceStep_spec (waited s)
    rw [waited_idx] at hidx hwrites
    generalize advanceStep (waited s) = t at *
    rw [hwaited] at hwrites
    exact ⟨w, idx, hlo, hboundary.trans hend, hidx, hwrites⟩
  next hfail => exact raised_of_wait_failure _ (Bool.eq_false_of_not_eq_true hfail)

/-- Settles O25: HALT is the passing of time, and PC at HALT names it again. -/
theorem haltChangesNothing : Obligations.HaltChangesNothing := by
  have hexec : ∀ s, exec .halt s = .next (elapse { s with pc := Config.pcHalt }) := fun _ => rfl
  have hhalted : ∀ s, s.pc = Config.pcHalt → exec .halt s = .next (elapse s) := by
    intro s hpc
    rw [hexec, ← hpc]
  refine ⟨fun s hpc => ⟨_, hhalted s hpc, envKept_elapse s, rfl⟩,
    fun s => ⟨_, hexec s, exec_envKept (hexec s), rfl⟩, fun s t hpc hreset h => ?_⟩
  rw [step_of_no_reset hreset, fetchInstr, hpc] at h
  obtain rfl := Host.Outcome.next.inj ((hhalted s hpc).symm.trans h)
  rfl

/-- Settles O28: either sample leaves IDX, F and KEY as the wait left them. -/
theorem stopRequestEndsAWaitInIdle : Obligations.StopRequestEndsAWaitInIdle := by
  intro s p hok hne
  refine ⟨fun hstop k => ?_, fun hgo => ?_, ?_⟩
  · simp [waitStep_of_stop hok hstop]
  · refine ⟨by simp [waitStep_of_go hok hgo], fun k => ⟨_, waitStep_of_go hok hgo k, ?_⟩⟩
    simp
  · obtain ⟨b, reqs, hb⟩ := List.exists_cons_of_ne_nil hne
    cases b
    · simp [waitStep_of_go hok (by rw [hb]; rfl)]
    · simp [waitStep_of_stop hok (by rw [hb]; rfl)]

/-- Settles O59: the status line's two durations, the pulse's four with its lateness, and the step's end. -/
theorem startSecondIsExact : Obligations.StartSecondIsExact := by
  rintro s a b c d e f g l durs lats off hd hl rfl
  obtain ⟨hnow, hdurs, hlats⟩ := emitStatus_exact hd (.emit 0 Config.startSym)
  obtain ⟨htrace, hend, hlast⟩ := pulseOf_exact (n := 200000) (by norm_num) hdurs (hlats.trans hl)
  rw [hnow] at htrace hend
  have hexec : exec .s0Emit s =
      .next (goto Config.pcS0Wait (pulseOf 200000 (emitStatus (.emit 0 Config.startSym) s))) := rfl
  refine ⟨_, hexec, htrace, ?_⟩
  rw [goto_env_now, Env.nextDur, hlast, hend]
  rfl

end Sys2Proof.Safety
end

section
/-!
R99's table: where each of the sequencer's rows leaves PC, and which of them leave the key alone.
-/
namespace Sys2Proof.Machine

open Sys2Proof.Safety

/-- The next state of a step from `s` to `t` that raises nothing, for the rows that have one (R99). -/
def successor (s t : State) : Instr → Option SeqCode
  | .idle => some (if s.env.nextStart then Config.pcAcqPoll else Config.pcIdle)
  | .acqPoll => some (if t.sec = Config.acqSec then Config.pcS59Emit else Config.pcAcqWait)
  | .acqWait => some Config.pcAcqPoll
  | .s59Emit => some Config.pcS59Wait
  | .s59Wait => some Config.pcS0Emit
  | .s0Emit => some Config.pcS0Wait
  | .s0Wait => some Config.pcBuild
  | .build => some Config.pcDEmit
  | .dEmit => some Config.pcDWait
  | .dWait => some (if s.idx = Config.lastData then Config.pcS59Emit else Config.pcDEmit)
  | _ => none

/-- The pairs of states that R99's table joins, HALT apart. -/
abbrev transitions : List (SeqCode × SeqCode) :=
  [(0, 0), (0, 1), (1, 3), (1, 2), (2, 1), (3, 4), (4, 5), (5, 6), (6, 7), (7, 8), (8, 9), (9, 8), (9, 3)]

/-- From `s` to `t` a fault was entered, or PC went to `p` with no fault recorded (R99, R122). -/
def FaultsOrGoesTo (s t : State) (p : SeqCode) : Prop :=
  (t.pc = Config.pcHalt ∧ t.fault ≠ 0) ∨ (t.fault = s.fault ∧ t.pc = p)

theorem raiseFault_fault_ne_zero (x : CoreFault) (s : State) : (raiseFault x s).fault ≠ 0 := by
  rw [raiseFault_fault]
  split
  · exact faultCode_ne_zero x
  · assumption

theorem faultsOrGoesTo_raiseFault (x : CoreFault) (s t : State) (p : SeqCode) :
    FaultsOrGoesTo s (raiseFault x t) p := .inl ⟨rfl, raiseFault_fault_ne_zero x t⟩

theorem faultsOrGoesTo_clockReadThen {k : State → State} {s : State} {p : SeqCode}
    (hfault : (k (clockLatched s)).fault = s.fault) (hpc : (k (clockLatched s)).pc = p) :
    FaultsOrGoesTo s (clockReadThen k s) p := by
  obtain e | e := clockReadThen_cases k s
  · exact e ▸ .inr ⟨hfault, hpc⟩
  · exact e ▸ faultsOrGoesTo_raiseFault _ s _ p

theorem faultsOrGoesTo_waitThen {k : State → State} {s : State} {p : SeqCode}
    (hfault : (k (waited s)).fault = s.fault) (hpc : (k (waited s)).pc = p) :
    FaultsOrGoesTo s (waitThen k s) p := faultsOrGoesTo_clockReadThen hfault hpc

theorem emission_fault {sy : Symbol} (h : sy ≠ Config.symReserved) (what : StatusInfo) (p : SeqCode) (s : State) :
    (emission what sy p s).fault = s.fault := pulse_fault h _

theorem advanceStep_pc (s : State) :
    (advanceStep s).pc = if s.idx = Config.lastData then Config.pcS59Emit else Config.pcDEmit := by
  unfold advanceStep
  split <;> rfl

/-- A row of the table faults or goes where the table says. -/
theorem exec_faultsOrGoesTo {i : Instr} {s t : State} {p : SeqCode} (h : exec i s = .next t)
    (hp : successor s t i = some p) : FaultsOrGoesTo s t p := by
  cases i with
  | idle =>
    obtain rfl := Host.Outcome.next.inj h
    obtain rfl := Option.some.inj hp
    exact .inr ⟨rfl, rfl⟩
  | acqPoll =>
    obtain rfl : clockReadThen pollStep s = t := Host.Outcome.next.inj h
    obtain rfl := Option.some.inj hp
    obtain e | e := clockReadThen_cases pollStep s
    · rw [e]
      exact .inr ⟨by simp, by simp⟩
    · exact e ▸ faultsOrGoesTo_raiseFault _ s _ _
  | acqWait | s59Wait | s0Wait =>
    obtain rfl := Host.Outcome.next.inj h
    obtain rfl := Option.some.inj hp
    rw [waitStep_noStop]
    exact faultsOrGoesTo_waitThen (by simp) (by simp)
  | s59Emit | s0Emit =>
    obtain rfl := Host.Outcome.next.inj h
    obtain rfl := Option.some.inj hp
    exact .inr ⟨emission_fault (by decide) _ _ s, rfl⟩
  | build =>
    obtain rfl : clockReadThen buildStep s = t := Host.Outcome.next.inj h
    obtain rfl := Option.some.inj hp
    exact faultsOrGoesTo_clockReadThen (by simp) (buildStep_pc _)
  | dEmit =>
    obtain ⟨sy, -, -, rfl⟩ := fetchSymbolThen_cases h
    obtain rfl := Option.some.inj hp
    by_cases hsy : sy = Config.symReserved
    · rw [hsy, emitStep_reserved]
      exact faultsOrGoesTo_raiseFault _ s _ _
    · rw [emitStep_of_ne hsy]
      exact .inr ⟨emission_fault hsy _ _ s, rfl⟩
  | dWait =>
    obtain rfl : waitThen advanceStep s = t := Host.Outcome.next.inj h
    obtain rfl := Option.some.inj hp
    exact faultsOrGoesTo_waitThen (by simp) (by simp [advanceStep_pc])
  | _ => cases hp

/-- Outside HALT every legal state has a successor in the table; D_WAIT's is the gap second exactly at IDX 58. -/
theorem successor_mem_transitions {s : State} (t : State) (hlegal : s.pc ∈ legalPcs)
    (hne : s.pc ≠ Config.pcHalt) :
    ∃ p, successor s t (fetchInstr s) = some p ∧ (s.pc, p) ∈ transitions ∧ (s.pc = 9 → (p = 3 ↔ s.idx = 58)) := by
  simp only [legalPcs, List.mem_cons, List.not_mem_nil, or_false] at hlegal
  unfold fetchInstr
  have hstraight : ∀ p q : SeqCode, p ≠ 9 → (p, q) ∈ transitions →
      (p, q) ∈ transitions ∧ (p = 9 → (q = 3 ↔ s.idx = 58)) := fun _ _ hp hpq => ⟨hpq, fun h => absurd h hp⟩
  obtain hpc | hpc | hpc | hpc | hpc | hpc | hpc | hpc | hpc | hpc | hpc := hlegal <;> rw [hpc] at hne ⊢
  · exact ⟨_, rfl, hstraight _ _ (by decide) (by split <;> decide)⟩
  · exact ⟨_, rfl, hstraight _ _ (by decide) (by split <;> decide)⟩
  -- ACQ_WAIT to D_EMIT have one successor each
  iterate 7 exact ⟨_, rfl, hstraight _ _ (by decide) (by decide)⟩
  · refine ⟨_, rfl, ?_⟩
    split
    · exact ⟨by decide, fun _ => iff_of_true rfl ‹_›⟩
    · exact ⟨by decide, fun _ => iff_of_false (by decide) ‹_›⟩
  · exact absurd rfl hne

/-! ### The rows that leave the key alone (R87, R102) -/

/-- The rows that run before the first pulse: from IDLE to the end of the gap second. -/
abbrev rowsBeforePulses : List Instr := [.idle, .acqPoll, .acqWait, .s59Emit, .s59Wait]

/-- What R99's table says of the states up to the gap second. -/
theorem transitions_before_pulses {p q : SeqCode} (h : (p, q) ∈ transitions) (hp : p.toNat ≤ 4) :
    q.toNat ≤ 5 ∧ (q = 5 → p = 4) ∧ (q = 4 → p = 3) ∧ (q = 3 → p = 1) := by
  have htable : transitions.all fun e => decide (e.1.toNat ≤ 4 →
    e.2.toNat ≤ 5 ∧ (e.2 = 5 → e.1 = 4) ∧ (e.2 = 4 → e.1 = 3) ∧ (e.2 = 3 → e.1 = 1)) := by decide
  exact of_decide_eq_true (List.all_eq_true.1 htable _ h) hp

theorem clockReadThen_keepsKey {k : State → State} (hk : ∀ s, (k s).trace = s.trace ∧ (k s).key = s.key)
    (s : State) :
    (clockReadThen k s).trace = s.trace ∧ (clockReadThen k s).key = s.key := by
  obtain e | e := clockReadThen_cases k s
  · rw [e, (hk _).1, (hk _).2]
    exact ⟨clockLatched_trace s, clockLatched_key s⟩
  · rw [e]
    exact ⟨rfl, rfl⟩

theorem waitThen_goto_keepsKey (p : SeqCode) (s : State) :
    (waitThen (goto p) s).trace = s.trace ∧ (waitThen (goto p) s).key = s.key := by
  obtain e | e := waitThen_cases (goto p) s
  · simp [e]
  · rw [e]
    exact ⟨rfl, rfl⟩

theorem exec_keepsKey {i : Instr} {s t : State} (hi : i ∈ rowsBeforePulses) (h : exec i s = .next t) :
    t.trace = s.trace ∧ t.key = s.key := by
  simp only [List.mem_cons, List.not_mem_nil, or_false] at hi
  obtain rfl | rfl | rfl | rfl | rfl := hi
  · obtain rfl := Host.Outcome.next.inj h
    exact ⟨rfl, rfl⟩
  · obtain rfl := Host.Outcome.next.inj h
    exact clockReadThen_keepsKey (fun s => ⟨pollStep_trace s, pollStep_key s⟩) s
  · obtain rfl := Host.Outcome.next.inj h
    exact waitThen_goto_keepsKey _ s
  · obtain rfl := Host.Outcome.next.inj h
    rw [pulse_none]
    simp
  · obtain rfl := Host.Outcome.next.inj h
    exact waitThen_goto_keepsKey _ s

end Sys2Proof.Machine
end

section
/-! The statements about every step of the sequencer (42_scheduler R99, R102). -/
namespace Sys2Proof.Safety

open Sys2Proof.Machine

/-- Settles O27: HALT stays, and every other state has its successor in the table or faults. -/
theorem transitionsAreThoseOfTheTable : Obligations.TransitionsAreThoseOfTheTable := by
  intro s t hreset h hlegal
  rw [step_of_no_reset hreset] at h
  by_cases hhalt : s.pc = Config.pcHalt
  · rw [fetchInstr, hhalt] at h
    obtain rfl := Host.Outcome.next.inj h
    exact .inl ⟨rfl, .inl hhalt⟩
  · obtain ⟨p, hp, hmem, hlast⟩ := successor_mem_transitions t hlegal hhalt
    obtain ⟨hpc, hfault⟩ | ⟨hfault, rfl⟩ := exec_faultsOrGoesTo h hp
    · exact .inl ⟨hpc, .inr hfault⟩
    · exact .inr ⟨hfault, hmem, hlast⟩

/-- Settles O29: the table's pairs from the first five states, whose rows leave the key alone. -/
theorem noPulseBeforeSecond59IsSeen : Obligations.NoPulseBeforeSecond59IsSeen := by
  intro s t hpc hreset h
  have hlegal : s.pc ∈ legalPcs := (show ∀ p : SeqCode, p.toNat ≤ 4 → p ∈ legalPcs by decide) s.pc hpc
  have hrow : fetchInstr s ∈ rowsBeforePulses :=
    (show ∀ p : SeqCode, p.toNat ≤ 4 → decodeSeq p ∈ rowsBeforePulses by decide) s.pc hpc
  have hmoves := transitionsAreThoseOfTheTable s t hreset h hlegal
  rw [step_of_no_reset hreset] at h
  obtain ⟨htrace, hkey⟩ := exec_keepsKey hrow h
  refine ⟨htrace, hkey, ?_⟩
  obtain ⟨hhalt, -⟩ | ⟨-, hmem, -⟩ := hmoves
  · rw [hhalt]
    exact ⟨.inr rfl, fun h => absurd h (by decide), fun h => absurd h (by decide),
      fun h => absurd h (by decide)⟩
  · obtain ⟨hle, h5, h4, h3⟩ := transitions_before_pulses hmem hpc
    refine ⟨.inl hle, h5, h4, fun hgap => ⟨h3 hgap, ?_⟩⟩
    rw [fetchInstr, h3 hgap] at h
    obtain ⟨hhalt, -⟩ | ⟨-, hpoll⟩ := exec_faultsOrGoesTo (i := .acqPoll) h rfl
    · exact absurd (hgap.symm.trans hhalt) (by decide)
    · by_contra hsec
      rw [if_neg hsec] at hpoll
      exact absurd (hgap.symm.trans hpoll) (by decide)

end Sys2Proof.Safety
end

section
/-!
One cycle of the sequencer, second by second: a sound core that no reset touches and whose coming clock reads
succeed goes round R99's table, and only its pulses lengthen the trace (R100).
-/
namespace Sys2Proof.Safety

open Sys2Proof.Machine

/-! ### Runs -/

/-- `k` steps lead from `s` to `t`. -/
def RunsTo (k : Nat) (s t : State) : Prop := Host.Core.run core k s = .next t

theorem RunsTo.refl (s : State) : RunsTo 0 s s := rfl

theorem RunsTo.step {k : Nat} {s t u : State} (h : step s = .next t) (htu : RunsTo k t u) :
    RunsTo (k + 1) s u := by
  show Host.Core.run core (k + 1) s = .next u
  simp only [Host.Core.run, show core.step s = .next t from h]
  exact htu

/-! ### The cycle's invariant -/

/-- A sound core out of reset's reach whose next `n` clock reads succeed. -/
structure Clocked (n : Nat) (oks : List Bool) (s : State) : Prop where
  sound : Sound s
  noReset : s.env.resets = []
  readable : s.env.clockOks = List.replicate n true ++ oks

theorem Clocked.nextClockOk {n : Nat} {oks : List Bool} {s : State} (h : Clocked (n + 1) oks s) :
    s.env.nextClockOk = true := by
  rw [Env.nextClockOk, h.readable]
  rfl

/-- The micro-operation that PC names is the step of such a core, and leaves one of its kind. -/
theorem Clocked.step {n m : Nat} {oks : List Bool} {s t : State} {p : SeqCode} (h : Clocked n oks s)
    (hpc : s.pc = p) (hexec : exec (decodeSeq p) s = .next t) (hreads : t.env.clockOks = List.replicate m true ++ oks) :
    Machine.step s = .next t ∧ Clocked m oks t := by
  subst hpc
  obtain ⟨u, hu, hsound⟩ := h.sound.exec
  obtain rfl := Host.Outcome.next.inj (hexec.symm.trans hu)
  have hkept := resets_of_envKept (exec_envKept hexec)
  exact ⟨(step_of_no_reset h.noReset).trans hexec, hsound, hkept.trans h.noReset, hreads⟩

/-- A row that reads no clock. -/
theorem Clocked.step_of_no_read {n : Nat} {oks : List Bool} {s t : State} {p : SeqCode} (h : Clocked n oks s)
    (hpc : s.pc = p) (hexec : exec (decodeSeq p) s = .next t) (hreads : t.env.clockOks = s.env.clockOks) :
    Machine.step s = .next t ∧ Clocked n oks t := h.step hpc hexec (hreads.trans h.readable)

/-- A row that reads the clock once. -/
theorem Clocked.step_of_read {n : Nat} {oks : List Bool} {s t : State} {p : SeqCode} (h : Clocked (n + 1) oks s)
    (hpc : s.pc = p) (hexec : exec (decodeSeq p) s = .next t) (hreads : t.env.clockOks = s.env.clockOks.tail) :
    Machine.step s = .next t ∧ Clocked n oks t :=
  h.step hpc hexec (by rw [hreads, h.readable]; rfl)

/-! ### The seconds -/

theorem emission_env_clockOks (what : StatusInfo) (sy : Symbol) (p : SeqCode) (s : State) :
    (emission what sy p s).env.clockOks = s.env.clockOks := by simp [emission]

theorem OnePulse.trace_length {d : Nat} {s t : State} (h : OnePulse d s t) :
    t.trace.length = s.trace.length + 2 := by
  obtain ⟨off, on, htrace, -⟩ := h
  rw [htrace, List.length_append]
  rfl

section
variable {n : Nat} {oks : List Bool} {s : State}

/-- A wait state reaches its successor with the trace as it was. -/
theorem Clocked.wait (h : Clocked (n + 1) oks s) {p q : SeqCode} (hpc : s.pc = p)
    (hexec : exec (decodeSeq p) s = .next (waitThen (goto q) s)) :
    ∃ t, Machine.step s = .next t ∧ Clocked n oks t ∧ t.pc = q ∧ t.trace = s.trace := by
  rw [waitThen_ok h.nextClockOk] at hexec
  obtain ⟨hstep, ht⟩ := h.step_of_read hpc hexec (by simp)
  exact ⟨_, hstep, ht, rfl, by simp⟩

theorem Clocked.s59Emit (h : Clocked n oks s) (hpc : s.pc = 3) :
    ∃ t, Machine.step s = .next t ∧ Clocked n oks t ∧ t.pc = 4 ∧ t.trace = s.trace := by
  obtain ⟨hstep, ht⟩ := h.step_of_no_read hpc (exec_s59Emit s) (emission_env_clockOks _ _ _ s)
  exact ⟨_, hstep, ht, rfl, (exec_keepsKey (i := .s59Emit) (by decide) (exec_s59Emit s)).1⟩

theorem Clocked.s0Emit (h : Clocked n oks s) (hpc : s.pc = 5) :
    ∃ t, Machine.step s = .next t ∧ Clocked n oks t ∧ t.pc = 6 ∧ t.trace.length = s.trace.length + 2 := by
  obtain ⟨hstep, ht⟩ := h.step_of_no_read hpc (exec_s0Emit s) (emission_env_clockOks _ _ _ s)
  exact ⟨_, hstep, ht, rfl, (emission_bit_spec (by decide) (by decide) _ _ s).1.trace_length⟩

theorem Clocked.build (h : Clocked (n + 1) oks s) (hpc : s.pc = 7) :
    ∃ t, Machine.step s = .next t ∧ Clocked n oks t ∧ t.pc = 8 ∧ t.idx = 1 ∧ t.trace = s.trace := by
  have hexec : exec .build s = .next (buildStep (clockLatched s)) :=
    congrArg Host.Outcome.next (clockReadThen_ok h.nextClockOk buildStep)
  obtain ⟨hstep, ht⟩ := h.step_of_read hpc hexec (by simp)
  exact ⟨_, hstep, ht, by simp, by simp, by simp⟩

/-- A data second sends ZERO or ONE, since F is fit to be sent. -/
theorem Clocked.dEmit (h : Clocked n oks s) (hpc : s.pc = 8) :
    ∃ t, Machine.step s = .next t ∧ Clocked n oks t ∧ t.pc = 9 ∧ t.idx = s.idx ∧
      t.trace.length = s.trace.length + 2 := by
  obtain ⟨hlo, hhi, hframe⟩ := h.sound.dataPhase (.inl hpc)
  obtain ⟨sy, hread, hnone, hreserved⟩ : ∃ sy, s.frame.read s.idx.toNat = some sy ∧ sy ≠ Config.symNone ∧
      sy ≠ Config.symReserved := by
    obtain hr | hr := hframe s.idx.toNat (by omega) hlo
    · exact ⟨_, hr, by decide⟩
    · exact ⟨_, hr, by decide⟩
  have hexec := exec_dEmit_of_written (by show s.idx.toNat < 60; omega) hread
  rw [emitStep_of_ne hreserved] at hexec
  obtain ⟨hstep, ht⟩ := h.step_of_no_read hpc hexec (emission_env_clockOks _ _ _ s)
  exact ⟨_, hstep, ht, rfl, (untouched_emission _ _ _ s).idx,
    (emission_bit_spec hnone hreserved _ _ s).1.trace_length⟩

/-- The wait of a data second: the next one, or after IDX 58 the gap second, with F as it was sent. -/
theorem Clocked.dWait (h : Clocked (n + 1) oks s) (hpc : s.pc = 9) :
    ∃ t, Machine.step s = .next t ∧ Clocked n oks t ∧ t.trace = s.trace ∧
      (s.idx = 58 → t.pc = 3 ∧ t.idx = 58 ∧ Transmittable t.frame) ∧
      (s.idx ≠ 58 → t.pc = 8 ∧ t.idx.toNat = s.idx.toNat + 1) := by
  have hexec : exec .dWait s = .next (advanceStep (waited s)) :=
    congrArg Host.Outcome.next (waitThen_ok h.nextClockOk advanceStep)
  obtain ⟨-, hhi, hframe⟩ := h.sound.dataPhase (.inr hpc)
  obtain ⟨hstep, ht⟩ := h.step_of_read hpc hexec (by simp)
  refine ⟨_, hstep, ht, ?_, fun hlast => ?_, fun hlast => ?_⟩
  · obtain ⟨idx, -, hwrites⟩ := advanceStep_spec (waited s)
    rw [hwrites]
    exact waited_trace s
  · rw [advanceStep_of_last ((waited_idx s).trans hlast)]
    exact ⟨rfl, (waited_idx s).trans hlast, by simpa using hframe⟩
  · have h63 : s.idx ≠ 63 := by
      rintro h63
      rw [h63] at hhi
      exact absurd hhi (by decide)
    rw [advanceStep_of_ne_last (by simpa using hlast), waited_idx, goto_idx, nextIdx, if_neg h63, BitVec.toNat_add]
    exact ⟨rfl, Nat.mod_eq_of_lt (by show s.idx.toNat + 1 < 64; omega)⟩

/-- One data second: its pulse, and then the next one or the gap second. -/
theorem Clocked.dataSecond (h : Clocked (n + 1) oks s) (hpc : s.pc = 8) :
    ∃ t u, Machine.step s = .next t ∧ Machine.step t = .next u ∧ Clocked n oks u ∧
      u.trace.length = s.trace.length + 2 ∧
      (s.idx = 58 → u.pc = 3 ∧ u.idx = 58 ∧ Transmittable u.frame) ∧
      (s.idx ≠ 58 → u.pc = 8 ∧ u.idx.toNat = s.idx.toNat + 1) := by
  obtain ⟨t, hst, ht, htpc, htidx, htlen⟩ := h.dEmit hpc
  obtain ⟨u, htu, hu, hutrace, hnext⟩ := ht.dWait htpc
  rw [htidx] at hnext
  exact ⟨t, u, hst, htu, hu, by rw [hutrace, htlen], hnext⟩

/-! ### The data seconds and the whole cycle -/

/-- From a data second on, with `n` more to come after it, the core reaches the gap second. -/
theorem Clocked.dataSeconds (h : Clocked (n + 1) oks s) (hpc : s.pc = 8) (hidx : s.idx.toNat + n = 58) :
    ∃ t, RunsTo (2 * (n + 1)) s t ∧ Clocked 0 oks t ∧ t.pc = 3 ∧ t.idx = 58 ∧
      t.trace.length = s.trace.length + 2 * (n + 1) ∧ Transmittable t.frame := by
  induction n generalizing s with
  | zero =>
    obtain ⟨t, u, hst, htu, hu, hlen, hlast, -⟩ := h.dataSecond hpc
    obtain ⟨hupc, huidx, hframe⟩ := hlast (BitVec.eq_of_toNat_eq hidx)
    exact ⟨u, .step hst (.step htu (.refl u)), hu, hupc, huidx, hlen, hframe⟩
  | succ n ih =>
    obtain ⟨t, u, hst, htu, hu, hlen, -, hnext⟩ := h.dataSecond hpc
    have hne : s.idx ≠ 58 := by
      rintro h58
      rw [h58, show (58 : BitVec 6).toNat = 58 from rfl] at hidx
      omega
    obtain ⟨hupc, huidx⟩ := hnext hne
    obtain ⟨v, hrun, hv, hvpc, hvidx, hvlen, hframe⟩ := ih hu hupc (by omega)
    exact ⟨v, .step hst (.step htu hrun), hv, hvpc, hvidx, by omega, hframe⟩

/-- R100's cycle: the gap second, second 0, BUILD and 58 data seconds. -/
theorem Clocked.cycle (h : Clocked 61 oks s) (hpc : s.pc = 3) :
    ∃ t, RunsTo 121 s t ∧ Clocked 0 oks t ∧ t.pc = 3 ∧ t.idx = 58 ∧
      t.trace.length = s.trace.length + 2 * 59 ∧ Transmittable t.frame := by
  obtain ⟨a, hsa, ha, hapc, hatrace⟩ := h.s59Emit hpc
  obtain ⟨b, hab, hb, hbpc, hbtrace⟩ := ha.wait hapc (exec_s59Wait a)
  obtain ⟨c, hbc, hc, hcpc, hclen⟩ := hb.s0Emit hbpc
  obtain ⟨d, hcd, hd, hdpc, hdtrace⟩ := hc.wait hcpc (exec_s0Wait c)
  obtain ⟨e, hde, he, hepc, heidx, hetrace⟩ := hd.build hdpc
  obtain ⟨t, hrun, ht, htpc, htidx, htlen, hframe⟩ := he.dataSeconds (n := 57) hepc (by rw [heidx]; rfl)
  refine ⟨t, .step hsa (.step hab (.step hbc (.step hcd (.step hde hrun)))), ht, htpc, htidx, ?_, hframe⟩
  rw [htlen, hetrace, hdtrace, hclen, hbtrace, hatrace]

end

/-- Settles O32: the cycle of a sound core, whose FAULT is empty wherever PC is not HALT. -/
theorem oneCycleSends59Pulses : Obligations.OneCycleSends59Pulses := by
  intro s oks hsound hpc hreset hreads
  obtain ⟨t, hrun, ht, htpc, htidx, htlen, hframe⟩ := Clocked.cycle ⟨hsound, hreset, hreads⟩ hpc
  have hrunning := ht.sound.running (by rw [htpc]; decide)
  exact ⟨t, hrun, htpc, htidx, hrunning.noFault, htlen, hframe⟩

end Sys2Proof.Safety
end

section
/-!
How far the wall clock goes in the operations of the timer and the key: over a reset, in a key call, and to the
microsecond in a wait and in an emission whose durations and lateness are named (43 R105 to R119).
-/
namespace Sys2Proof.Machine

open Sys2Proof.Safety

/-! ### Reset (R141) -/

/-- A pulse of rst takes W on to its rise, unless that is past, and then to its fall. -/
@[simp] theorem resetBy_env_now (r : ResetPulse) (rest : List ResetPulse) (s : State) :
    (resetBy r rest s).env.now = max s.env.now r.rise + r.hold := rfl

@[simp] theorem cutAt_env_now (w : Nat) (s t : State) : (cutAt w s t).env.now = w := rfl

/-! ### Key calls (R109, R110) -/

/-- A key call writes KEY and appends its event, at the moment between its two durations. -/
theorem atOneMoment_setKey_spec (on : Bool) (s : State) :
    ∃ w, s.env.now ≤ w ∧ w ≤ (atOneMoment (setKey on) s).env.now ∧
      atOneMoment (setKey on) s = { s with
        key := on, trace := s.trace ++ [{ time := w, on := on }], env := (atOneMoment (setKey on) s).env } :=
  ⟨(elapse s).env.now, now_le_of_envKept (envKept_elapse s), Nat.le_add_right _ _, rfl⟩

/-! ### Waits (R116) -/

/-- US holds the microseconds of a second without loss (R24). -/
theorem microseconds_toNat (w : Nat) : (BitVec.ofNat 20 (w % 1000000)).toNat = w % 1000000 := by
  rw [BitVec.toNat_ofNat]
  omega

/-- D_WAIT's end takes one duration, whichever state it goes on to (R97, R111). -/
theorem advanceStep_env (s : State) : (advanceStep s).env = (elapse s).env := by
  unfold advanceStep
  split <;> rfl

@[simp] theorem advanceStep_trace (s : State) : (advanceStep s).trace = s.trace := by
  unfold advanceStep
  split <;> rfl

@[simp] theorem advanceStep_us (s : State) : (advanceStep s).us = s.us := by
  unfold advanceStep
  split <;> rfl

/-- Inside second `n`, what is left of it leads to the boundary that follows. -/
theorem add_to_next_boundary (n : Nat) {d : Nat} (hd : d < 1000000) :
    n * 1000000 + d + (1000000 - (n * 1000000 + d) % 1000000) = (n + 1) * 1000000 := by
  omega

/-- What ends a wait state: it leaves US alone and takes one duration. -/
structure EndsStep (k : State → State) : Prop where
  us : ∀ s, (k s).us = s.us
  env : ∀ s, (k s).env = (elapse s).env

theorem endsStep_goto (p : SeqCode) : EndsStep (goto p) := ⟨fun _ => rfl, fun _ => rfl⟩

theorem endsStep_advanceStep : EndsStep advanceStep := ⟨advanceStep_us, advanceStep_env⟩

/-- With the durations and the lateness named, a wait state's clock read and its end to the microsecond. -/
theorem waitThen_exact {k : State → State} (hk : EndsStep k) {s : State} {a b c l : Nat} {durs lats : List Nat}
    (hok : s.env.nextClockOk = true) (hd : s.env.durs = a :: b :: c :: durs) (hl : s.env.lats = l :: lats) :
    (waitThen k s).us.toNat = (s.env.now + a) % 1000000 ∧
      (waitThen k s).env.now = s.env.now + a + b + (1000000 - (s.env.now + a) % 1000000) + l + c := by
  obtain ⟨hus, hnow, hdurs⟩ := waited_exact hd hl
  rw [waitThen_ok hok, hk.us, hk.env, hus, elapse_env_now, Env.nextDur, hdurs, hnow]
  exact ⟨microseconds_toNat _, rfl⟩

/-! ### Pulses of a bit (R112, R113, R119) -/

/-- How long the carrier is off for a bit, without lateness (R112, R113). -/
abbrev nominalUs (b : Bool) : Nat := if b then 200000 else 100000

/-- A bit's pulse ends inside its second. -/
theorem nominalUs_lt_second (b : Bool) : nominalUs b < 1000000 := by cases b <;> decide

theorem pulse_symOf (b : Bool) (s : State) : pulse (symOf b) s = pulseOf (nominalUs b) s := by
  cases b <;> rfl

/-- The rows that send a bit, each with its nominal time. -/
abbrev bitRows : List (Instr × Nat) :=
  [(Instr.sym0, 100000), (.pulse 0, 100000), (.sym1, 200000), (.pulse 1, 200000)]

theorem exec_bitRow {i : Instr} {d : Nat} (h : (i, d) ∈ bitRows) (s : State) :
    ∃ b, d = nominalUs b ∧ exec i s = .next (pulseOf (nominalUs b) s) := by
  simp only [List.mem_cons, Prod.mk.injEq, List.not_mem_nil, or_false] at h
  obtain ⟨rfl, rfl⟩ | ⟨rfl, rfl⟩ | ⟨rfl, rfl⟩ | ⟨rfl, rfl⟩ := h
  · exact ⟨false, rfl, rfl⟩
  · exact ⟨false, rfl, rfl⟩
  · exact ⟨true, rfl, rfl⟩
  · exact ⟨true, rfl, rfl⟩

/-- A pulse draws one lateness, that of its sleep. -/
@[simp] theorem pulseOf_env_lats (d : Nat) (s : State) : (pulseOf d s).env.lats = s.env.lats.tail := by
  simp [pulseOf, keyOn, keyOff, atOneMoment]

theorem nominalUs_lt (b : Bool) : nominalUs b < 2 ^ 20 := by cases b <;> decide

/-- With the durations and the lateness named, the events and the end of an emission of a bit: the status line,
the pulse, and the write of PC. -/
theorem emission_exact {s : State} {x y a b c e g l : Nat} {durs lats : List Nat}
    (hd : s.env.durs = x :: y :: a :: b :: c :: e :: g :: durs) (hl : s.env.lats = l :: lats)
    (what : StatusInfo) (bit : Bool) (p : SeqCode) :
    (emission what (symOf bit) p s).trace = s.trace ++ [{ time := s.env.now + x + y + a, on := false },
        { time := s.env.now + x + y + a + b + nominalUs bit + l + c, on := true }] ∧
      (emission what (symOf bit) p s).env.now =
        s.env.now + x + y + a + b + nominalUs bit + l + c + e + g ∧
      (emission what (symOf bit) p s).env.durs = durs ∧ (emission what (symOf bit) p s).env.lats = lats := by
  obtain ⟨hnow, hdurs, hlats⟩ := emitStatus_exact hd what
  obtain ⟨htrace, hend, hrest⟩ := pulseOf_exact (nominalUs_lt bit) hdurs (hlats.trans hl)
  rw [hnow] at htrace hend
  rw [emission, pulse_symOf, goto_trace, goto_env_now, goto_env_durs, goto_env_lats, Env.nextDur, hrest, hend,
    pulseOf_env_lats, hlats, hl]
  exact ⟨htrace, rfl, rfl, rfl⟩

end Sys2Proof.Machine
end

section
/-! The statements about the pulse, the timer and the primitives (43_pulse_and_timer). -/
namespace Sys2Proof.Safety

open Sys2Proof.Machine

/-- Settles O8: a micro-operation keeps W or moves it on, and so does a reset before it or inside it. -/
theorem timeNeverRunsBackwards : Obligations.TimeNeverRunsBackwards := by
  intro s t h
  obtain ⟨he, -⟩ | ⟨r, rest, -, -, rfl⟩ | ⟨r, rest, u, -, hrise, -, -, rfl⟩ := step_cases h
  · exact now_le_of_envKept (exec_envKept he)
  · rw [resetBy_env_now]
    omega
  · rw [resetBy_env_now, cutAt_env_now]
    omega

/-- Settles O12: each row is the pulse of its bit. -/
theorem bitSymbolsMakeOnePulse : Obligations.BitSymbolsMakeOnePulse := by
  intro i d s hid
  obtain ⟨b, rfl, hexec⟩ := exec_bitRow hid s
  obtain ⟨hpulse, henv, hwrites⟩ := pulseOf_spec (nominalUs_lt b) s
  exact ⟨_, hexec, hpulse, henv, hwrites, fun a => by rw [hwrites]⟩

/-- Settles O13: NONE is no pulse at all. -/
theorem noneSymbolDoesNothing : Obligations.NoneSymbolDoesNothing := by
  intro i s hi
  have hexec : exec i s = .next (pulse Config.symNone s) := by
    simp only [List.mem_cons, List.not_mem_nil, or_false] at hi
    obtain rfl | rfl := hi <;> rfl
  rw [hexec, pulse_none]

/-- Settles O15: the two events of a pulse, with its durations and its lateness named. -/
theorem carrierOffTimeIsNominalPlusLateness : Obligations.CarrierOffTimeIsNominalPlusLateness := by
  intro i d s a b c e l durs lats hid hd hl
  have hsub : [(Instr.sym0, 100000), (.sym1, 200000)] ⊆ bitRows := by decide
  obtain ⟨bit, rfl, hexec⟩ := exec_bitRow (hsub hid) s
  obtain ⟨htrace, -, -⟩ := pulseOf_exact (nominalUs_lt bit) hd hl
  exact ⟨_, hexec, htrace⟩

/-- Settles O31: ten durations of 0, seven in the emission and three in the wait, whose clock read then falls
on the end of the pulse, inside the second that began at the boundary. -/
theorem idealSecondIsExact : Obligations.IdealSecondIsExact := by
  intro s b n durs lats oks hreset hpc hidx hread hnow hd hl hok
  have hexec := exec_dEmit_of_written hidx hread
  rw [emitStep_of_ne (symOf_ne_reserved b)] at hexec
  have hstep : step s = .next (emission (.emit s.idx (symOf b)) (symOf b) Config.pcDWait s) := by
    rw [step_of_no_reset hreset, fetchInstr, hpc]
    exact hexec
  obtain ⟨htrace, hend, hdurs, hlats⟩ :=
    emission_exact (durs := 0 :: 0 :: 0 :: durs) hd hl (.emit s.idx (symOf b)) b Config.pcDWait
  have hkept := resets_of_envKept (exec_envKept hexec)
  have hreads := emission_env_clockOks (.emit s.idx (symOf b)) (symOf b) Config.pcDWait s
  have htpc : (emission (.emit s.idx (symOf b)) (symOf b) Config.pcDWait s).pc = 9 := rfl
  generalize emission (.emit s.idx (symOf b)) (symOf b) Config.pcDWait s = t at *
  have hnext : t.env.nextClockOk = true := by
    rw [Env.nextClockOk, hreads, hok]
    rfl
  have hwait : step t = .next (waitThen advanceStep t) := by
    rw [step_of_no_reset (hkept.trans hreset), fetchInstr, htpc]
    exact exec_dWait t
  obtain ⟨-, hboundary⟩ := waitThen_exact endsStep_advanceStep hnext hdurs hlats
  rw [hnow] at htrace hend
  simp only [Nat.add_zero] at htrace hend hboundary
  refine ⟨t, _, hstep, hwait, ?_, ?_⟩
  · rw [waitThen_ok hnext, advanceStep_trace, waited_trace, htrace]
  · rw [hboundary, hend]
    exact add_to_next_boundary n (nominalUs_lt_second b)

/-- Settles O49: the clock is latched between the two durations of the read. -/
theorem clockReadLatchesOneInstant : Obligations.ClockReadLatchesOneInstant := by
  intro s
  refine ⟨clockReadThen id s, rfl, exec_envKept (i := .clockRead) rfl, ?_⟩
  split
  next hok =>
    rw [clockReadThen_ok hok, id]
    obtain ⟨w, hlo, hhi, hwrites⟩ := clockLatched_spec s
    refine ⟨w, hlo, hhi, hwrites, ?_⟩
    rw [hwrites, microseconds_toNat]
    exact Nat.mod_lt _ (by norm_num)
  next hfail => exact (raised_of_clock_failure _ (Bool.eq_false_of_not_eq_true hfail)).1

/-- Settles O50: the answer is in range, and no row changes the time source that gives it. -/
theorem calendarAnswersInRange : Obligations.CalendarAnswersInRange := by
  refine ⟨fun s n => ?_, fun s n => ?_, fun _ _ n _ h => calendarAt_of_envKept (exec_envKept h) n⟩
  · obtain ⟨hrange, hsec⟩ := calOf_inRange (s.env.calendarAt n)
    exact ⟨_, rfl, exec_envKept (i := .calendar .fields n) rfl, rfl, hrange, hsec, rfl⟩
  · obtain ⟨-, hsec⟩ := calOf_inRange (s.env.calendarAt n)
    exact ⟨_, rfl, exec_envKept (i := .calendar .second n) rfl, rfl, hsec, rfl⟩

/-- Settles O51: the lateness is the environment's next answer. -/
theorem sleepNeverEndsEarly : Obligations.SleepNeverEndsEarly :=
  fun s d => ⟨sleepFor d s, s.env.nextLat, rfl, envKept_sleepFor d s, sleepFor_env_now s d, rfl⟩

/-- Settles O52: either call is the write of KEY with its event. -/
theorem keyCallsSwitchTheCarrier : Obligations.KeyCallsSwitchTheCarrier := by
  intro i on s hi
  have hexec : exec i s = .next (atOneMoment (setKey on) s) := by
    simp only [List.mem_cons, Prod.mk.injEq, List.not_mem_nil, or_false] at hi
    obtain ⟨rfl, rfl⟩ | ⟨rfl, rfl⟩ := hi <;> rfl
  obtain ⟨w, hlo, hhi, hwrites⟩ := atOneMoment_setKey_spec on s
  exact ⟨_, w, hexec, exec_envKept hexec, hlo, hhi, hwrites⟩

/-- Settles O53: WAITB is its clock read and the sleep to the boundary, or the fault. -/
theorem waitEndsNotBeforeTheBoundary : Obligations.WaitEndsNotBeforeTheBoundary := by
  intro s
  refine ⟨waitThen id s, rfl, exec_envKept (i := .waitB) rfl, ?_⟩
  split
  next hok =>
    rw [waitThen_ok hok]
    exact waited_spec s
  next hfail => exact raised_of_wait_failure _ (Bool.eq_false_of_not_eq_true hfail)

/-- Settles O54: the status line is all that is written. -/
theorem statusHasNoEffectOnState : Obligations.StatusHasNoEffectOnState := by
  intro s what
  obtain ⟨henv, u, hlo, hhi, hwrites⟩ := emitStatus_spec what s
  exact ⟨emitStatus what s, u, rfl, henv, hlo, hhi, hwrites⟩

/-- Settles O58: WAITB to the microsecond, and the four wait states with the duration of their end. -/
theorem waitsSleepToTheBoundary : Obligations.WaitsSleepToTheBoundary := by
  rintro s a b c l durs lats w hok hd hl rfl
  constructor
  · obtain ⟨hus, hnow, -⟩ := waited_exact hd hl
    have hexec : exec .waitB s = .next (waited s) := congrArg Host.Outcome.next (waitThen_ok hok id)
    exact ⟨_, hexec, by rw [hus, microseconds_toNat], hnow⟩
  · intro i hi
    obtain ⟨k, hk, hexec⟩ : ∃ k, EndsStep k ∧ exec i s = .next (waitThen k s) := by
      simp only [List.mem_cons, List.not_mem_nil, or_false] at hi
      obtain rfl | rfl | rfl | rfl := hi
      · exact ⟨_, endsStep_goto _, exec_acqWait s⟩
      · exact ⟨_, endsStep_goto _, exec_s59Wait s⟩
      · exact ⟨_, endsStep_goto _, exec_s0Wait s⟩
      · exact ⟨_, endsStep_advanceStep, exec_dWait s⟩
    exact ⟨_, hexec, waitThen_exact hk hok hd hl⟩

end Sys2Proof.Safety
end

section
/-!
What ends a step early: the reset input, before the step or inside it (60_exceptions R132, 70 R141, R143), and a
fault, for which a row other than raise records one of two codes (60_exceptions R121, R125, R126).
-/
namespace Sys2Proof.Machine

/-! ### The reset input -/

/-- A pulse of rst that is due acts instead of the step (R132). -/
theorem step_of_due_reset {s : State} {r : ResetPulse} {rest : List ResetPulse} (hr : s.env.resets = r :: rest)
    (hrise : r.rise ≤ s.env.now) : step s = .next (resetBy r rest s) := by
  simp [step, underReset, hr, hrise]

/-- A pulse of rst that rises before the step's end acts on what has happened by its rise (R141). -/
theorem step_of_reset_inside {s u : State} {r : ResetPulse} {rest : List ResetPulse}
    (hr : s.env.resets = r :: rest) (hrise : s.env.now < r.rise) (hu : exec (fetchInstr s) s = .next u)
    (hend : r.rise < u.env.now) : step s = .next (resetBy r rest (cutAt r.rise s u)) := by
  simp [step, underReset, hr, hu, Nat.not_le.mpr hrise, hend]

/-- A pulse of rst that acts at the moment `w`: R30's values, and the ON event at `w` of a carrier held off. -/
theorem resetBy_spec {s : State} {r : ResetPulse} {w : Nat} (hw : max s.env.now r.rise = w)
    (rest : List ResetPulse) :
    (resetBy r rest s).pc = 0 ∧ (resetBy r rest s).idx = 0 ∧ (resetBy r rest s).key = true ∧
      (resetBy r rest s).tmr = 0 ∧ (resetBy r rest s).fault = 0 ∧ (∀ i, (resetBy r rest s).frame.read i = none) ∧
      (resetBy r rest s).env.resets = rest ∧ (resetBy r rest s).env.now = w + r.hold ∧
      (resetBy r rest s).trace = if s.key then s.trace else s.trace ++ [{ time := w, on := true }] := by
  subst hw
  exact ⟨rfl, rfl, rfl, rfl, rfl, fun _ => rfl, rfl, rfl, rfl⟩

/-! ### The codes that a row records -/

/-- From `s` to `t` FAULT stays, or a first fault is recorded whose code is that of a failed clock read or of an
illegal symbol, and PC is HALT. -/
def KeepsFaultOrHalts (s t : State) : Prop :=
  t.fault = s.fault ∨ (s.fault = 0 ∧ t.pc = Config.pcHalt ∧ (t.fault = 3 ∨ t.fault = 4))

/-- Entering one of the core's two faults, in a step that had not written FAULT (R122 to R124). -/
theorem keepsFaultOrHalts_raiseFault {x : CoreFault} (hx : faultCode x = 3 ∨ faultCode x = 4) {s u : State}
    (hu : u.fault = s.fault) : KeepsFaultOrHalts s (raiseFault x u) := by
  by_cases hs : s.fault = 0
  · refine .inr ⟨hs, rfl, ?_⟩
    rwa [raiseFault_fault, if_pos (hu.trans hs)]
  · exact .inl (by rw [raiseFault_fault, hu, if_neg hs])

theorem keepsFaultOrHalts_clockReadThen {k : State → State} (hk : ∀ s, (k s).fault = s.fault) (s : State) :
    KeepsFaultOrHalts s (clockReadThen k s) := by
  obtain e | e := clockReadThen_cases k s
  · exact e ▸ .inl ((hk _).trans (clockLatched_fault s))
  · exact e ▸ keepsFaultOrHalts_raiseFault (.inl rfl) rfl

theorem keepsFaultOrHalts_waitThen {k : State → State} (hk : ∀ s, (k s).fault = s.fault) (s : State) :
    KeepsFaultOrHalts s (waitThen k s) :=
  keepsFaultOrHalts_clockReadThen (fun t => hk (sleepFor _ t)) s

theorem keepsFaultOrHalts_pulse (sy : Symbol) (s : State) : KeepsFaultOrHalts s (pulse sy s) := by
  by_cases hsy : sy = Config.symReserved
  · rw [hsy]
    exact keepsFaultOrHalts_raiseFault (x := .illegalSymbol) (.inr rfl) (elapse_fault s)
  · exact .inl (pulse_fault hsy s)

theorem keepsFaultOrHalts_emitStep (sy : Symbol) (s : State) : KeepsFaultOrHalts s (emitStep sy s) := by
  by_cases hsy : sy = Config.symReserved
  · rw [hsy, emitStep_reserved]
    exact keepsFaultOrHalts_raiseFault (.inr rfl) (elapse_fault s)
  · rw [emitStep_of_ne hsy]
    exact .inl (emission_fault hsy _ _ s)

/-- Raise and reset apart, a row records no code but those of its clock read and of its symbol. -/
theorem exec_keepsFaultOrHalts {i : Instr} {s t : State} (hraise : ∀ x, i ≠ .raise x) (hreset : i ≠ .reset)
    (h : exec i s = .next t) : KeepsFaultOrHalts s t := by
  cases i
  case raise x => exact absurd rfl (hraise x)
  case reset => exact absurd rfl hreset
  -- the rows that send a symbol
  case sym0 | sym1 | symN | symReserved | pulse =>
    obtain rfl := Host.Outcome.next.inj h
    exact keepsFaultOrHalts_pulse _ s
  case s59Emit | s0Emit =>
    obtain rfl := Host.Outcome.next.inj h
    exact .inl (emission_fault (by decide) _ _ s)
  case dEmit =>
    obtain ⟨sy, -, -, rfl⟩ := fetchSymbolThen_cases h
    exact keepsFaultOrHalts_emitStep sy s
  -- the rows that read the clock
  case acqPoll =>
    obtain rfl := Host.Outcome.next.inj h
    exact keepsFaultOrHalts_clockReadThen pollStep_fault s
  case build =>
    obtain rfl := Host.Outcome.next.inj h
    exact keepsFaultOrHalts_clockReadThen buildStep_fault s
  case clockRead =>
    obtain rfl := Host.Outcome.next.inj h
    exact keepsFaultOrHalts_clockReadThen (fun _ => rfl) s
  case acqWait | s59Wait | s0Wait =>
    obtain rfl := Host.Outcome.next.inj h
    exact keepsFaultOrHalts_waitThen (fun t => goto_fault t _) s
  case dWait =>
    obtain rfl := Host.Outcome.next.inj h
    exact keepsFaultOrHalts_waitThen advanceStep_fault s
  case waitB =>
    obtain rfl := Host.Outcome.next.inj h
    exact keepsFaultOrHalts_waitThen (fun _ => rfl) s
  -- the rows that raise nothing
  case buildFrame c =>
    rw [eq_of_exec_buildFrame h]
    exact .inl (by simp)
  case fixPat =>
    obtain rfl : elapse (fixPattern Config.preamble s) = t := Host.Outcome.next.inj h
    exact .inl (by simp)
  case encMin m =>
    obtain rfl : elapse (encodeMinute m s) = t := Host.Outcome.next.inj h
    exact .inl (by simp [encodeMinute_eq])
  case encHour m =>
    obtain rfl : elapse (encodeHour m s) = t := Host.Outcome.next.inj h
    exact .inl (by simp [encodeHour_eq])
  case encDate a b c d =>
    obtain rfl : elapse (encodeDate a b c d s) = t := Host.Outcome.next.inj h
    exact .inl (by simp [encodeDate_eq])
  case lsbF g w lo p =>
    obtain ⟨-, rfl⟩ := exec_lsbF_cases h
    exact .inl (by simp [lsbf_eq])
  case par =>
    obtain ⟨-, rfl⟩ := exec_par_cases h
    exact .inl rfl
  case calendar =>
    obtain rfl := Host.Outcome.next.inj h
    exact .inl (by simp)
  case idle | halt | seqUnused1010 | seqUnused1011 | seqUnused1100 | seqUnused1101 | seqUnused1110 | dstPair |
      hrAdj | dowMap | bcdU | bcdT | sleep | keyOff | keyOn | status =>
    obtain rfl := Host.Outcome.next.inj h
    exact .inl rfl

end Sys2Proof.Machine
end

section
/-! The statements about faults and about a reset inside a step (60_exceptions). -/
namespace Sys2Proof.Safety

open Sys2Proof.Machine

/-- Settles O4: a due pulse acts on the state as it stands, one inside the step on the step cut at its rise. -/
theorem resetActsInsideAStep : Obligations.ResetActsInsideAStep := by
  intro s r rest hr
  constructor
  · intro hdue
    exact ⟨_, step_of_due_reset hr hdue, resetBy_spec (max_eq_left hdue) rest⟩
  · intro u hrise hu hend
    obtain ⟨hpc, hidx, hkey, htmr, hfault, hframe, hresets, hnow, htrace⟩ :=
      resetBy_spec (s := cutAt r.rise s u) (max_self r.rise) rest
    exact ⟨_, step_of_reset_inside hr hrise hu hend, hpc, hidx, hkey, htmr, hfault, hframe, hresets, hnow,
      _, rfl, htrace⟩

/-- Settles O57: by the two faults that a row can enter. -/
theorem sequencerRaisesOnlyItsTwoFaults : Obligations.SequencerRaisesOnlyItsTwoFaults :=
  fun _ _ _ hraise hreset h => exec_keepsFaultOrHalts hraise hreset h

/-- Settles O55: raise is the entry of its fault, with the code of R121's table, and time passes. -/
theorem raiseKeepsTheFirstFault : Obligations.RaiseKeepsTheFirstFault := by
  intro s x
  refine ⟨elapse (raiseFault x s), rfl, exec_envKept (i := .raise x) rfl, ?_⟩
  cases x <;> rfl

end Sys2Proof.Safety
end

section
/-! The statement about reset as an instruction (70_reset_and_hazards R141 to R143). -/
namespace Sys2Proof.Safety

open Sys2Proof.Machine

/-- The row of reset acts on the core at once: no time passes and no answer is drawn (R141). -/
theorem exec_reset (s : State) : exec .reset s = .next (resetCore s) := rfl

/-- Settles O2: the reset of the core writes out the reset state, with the ON event of a carrier held off. -/
theorem resetActsFromAnyState : Obligations.ResetActsFromAnyState := by
  intro s
  rw [exec_reset, resetCore]

end Sys2Proof.Safety
end
